-- ==== Sys2Proof/Word.lean ====
section
/-! DEFINITION. The bit strings of the block: bytes, nibbles, request words, bus addresses (R4, R60, R33). -/

namespace Sys2Proof

/-- A byte, 8 bits, unsigned (R4). -/
abbrev Byte := BitVec 8

/-- A nibble, 4 bits (R4). -/
abbrev Nibble := BitVec 4

/-- A request word `REQ11`: `op` in bits 10:8, `arg` in bits 7:0 (R60). -/
abbrev ReqWord := BitVec 11

/-- A 7-bit I2C device address (R33, R40). -/
abbrev BusAddr := BitVec 7

/-- A time in microseconds, always a lower bound (R7). -/
abbrev Micros := Nat

/-- The I2C master's own error value, opaque to the block and passed on unchanged (R5, R162; log 24). -/
abbrev ErrVal := Nat

end Sys2Proof
end

