-- ==== Sys2Proof/Config.lean ====
section
/-! DEFINITION. The parameters of one instance of the block: fixed at construction, never changed while it runs (R3). -/

namespace Sys2Proof

/-- The character font selector (R3: `F5x8` or `F5x10`). -/
inductive Font where
  | f5x8
  | f5x10
deriving DecidableEq, Repr

/-- `PINMAP`: the masks of the expander byte's fields (R3, R64; 92_eei_decisions.md D6; log 5). -/
structure PinMap where
  /-- `P_RS`, register select. -/
  pRs : Byte
  /-- `P_RW`, the controller's read/write line, always sent as 0 (R66). -/
  pRw : Byte
  /-- `P_EN`, the enable strobe. -/
  pEn : Byte
  /-- `P_BL`, the backlight switch. -/
  pBl : Byte
  /-- `P_DATA`, four adjacent bits that carry the nibble. -/
  pData : Byte
deriving DecidableEq, Repr

/-- The default pin map of R3 and R64. -/
def PinMap.standard : PinMap :=
  { pRs := 0x01, pRw := 0x02, pEn := 0x04, pBl := 0x08, pData := 0xF0 }

/-- The delays of R3 and R196, each a lower bound in microseconds. -/
structure Delays where
  tEnHold : Micros
  tSettle : Micros
  tLongCmd : Micros
  tPowerup : Micros
  tExpReset : Micros
  tHs1 : Micros
  tHs2 : Micros
  tHs3 : Micros
deriving DecidableEq, Repr

/-- The default delays of R3. -/
def Delays.standard : Delays :=
  { tEnHold := 1, tSettle := 50, tLongCmd := 2000, tPowerup := 50000, tExpReset := 1000000,
    tHs1 := 4000, tHs2 := 4000, tHs3 := 150 }

/-- `CMDSET`: the command codes of R70 and the flag values of R71 (92_eei_decisions.md D7; log 5).
A flag whose other value R71 gives as 0x00 (`ENTRYRIGHT`, `CURSORMOVE`, `MOVELEFT`, `MODE_4BIT`, `LINES_1`,
`DOTS_5x8`, and "off") needs no field of its own. -/
structure CmdSet where
  clearDisplay : Byte
  returnHome : Byte
  entryModeSet : Byte
  displayControl : Byte
  cursorShift : Byte
  functionSet : Byte
  setCgramAddr : Byte
  setDdramAddr : Byte
  entryLeft : Byte
  entryShiftIncrement : Byte
  displayOn : Byte
  cursorOn : Byte
  blinkOn : Byte
  displayMove : Byte
  moveRight : Byte
  mode8Bit : Byte
  lines2 : Byte
  dots5x10 : Byte
deriving DecidableEq, Repr

/-- The codes and flag values listed in R70 and R71. -/
def CmdSet.standard : CmdSet :=
  { clearDisplay := 0x01, returnHome := 0x02, entryModeSet := 0x04, displayControl := 0x08,
    cursorShift := 0x10, functionSet := 0x20, setCgramAddr := 0x40, setDdramAddr := 0x80,
    entryLeft := 0x02, entryShiftIncrement := 0x01,
    displayOn := 0x04, cursorOn := 0x02, blinkOn := 0x01,
    displayMove := 0x08, moveRight := 0x04,
    mode8Bit := 0x10, lines2 := 0x08, dots5x10 := 0x04 }

/-- Everything that is fixed for one Display Session (R3, R25, R31, R32). -/
structure Config where
  /-- `I2C_ADDR`, the expander's bus address (R25). -/
  i2cAddr : BusAddr
  /-- `COLS`, read by no operation (R31). -/
  cols : Nat
  /-- `ROWS`, 1 to 4 (R3). -/
  rows : Nat
  /-- `FONT` (R3). -/
  font : Font
  /-- `BL_RESET`, the backlight register's value after reset (R3, R36). -/
  blReset : Bool
  /-- `PINMAP` (R3). -/
  pins : PinMap
  /-- The eight delays (R3). -/
  delays : Delays
  /-- `ROW_OFFSET`, the DDRAM base offset of each row (R32). -/
  rowOffset : List Byte
  /-- `CMDSET` (R3). -/
  cmd : CmdSet
deriving DecidableEq, Repr

/-- The value of `I2C_ADDR`, which the spec leaves OPEN: it "has no default" (92_eei_decisions.md D9; log 4).
A constant with no body, so that no proof can rest on an address. -/
opaque Config.openI2cAddr : BusAddr

/-- Every parameter at the default of R3, and `I2C_ADDR` open. -/
def Config.standard : Config :=
  { i2cAddr := Config.openI2cAddr, cols := 16, rows := 2, font := .f5x8, blReset := false,
    pins := PinMap.standard, delays := Delays.standard,
    rowOffset := [0x00, 0x40, 0x14, 0x54], cmd := CmdSet.standard }

end Sys2Proof
end

