-- ==== Sys2Proof/Syntax.lean ====
section
/-! DEFINITION. The instructions: one constructor for each of the 34 rows of spec/opcode_table.json. -/

namespace Sys2Proof

/-- An instruction. The first five are the block's primitive requests (format `REQ11`, R61), the next eight the
command bytes a CMD request carries (format `CMD8`, R70), the last 21 the public operations of the command layer
(format `PSEUDO`, R74). -/
inductive Instr where
  /-- `CMD v`: send a command byte (R97). -/
  | cmd (v : Byte)
  /-- `DAT v`: send a data byte (R98). -/
  | dat (v : Byte)
  /-- `NIB n`: one nibble write in command mode (R96). -/
  | nib (n : Nibble)
  /-- `BLW b`: write the backlight bit (R95). -/
  | blw (b : Bool)
  /-- `XWR`: expander write of the zero-data byte (R94). -/
  | xwr
  /-- `CLEARDISPLAY`, `00000001` (R70). -/
  | clearDisplay
  /-- `RETURNHOME`, `00000010` (R70). -/
  | returnHome
  /-- `ENTRYMODESET`, `000001is` (R70). -/
  | entryModeSet (i s : Bool)
  /-- `DISPLAYCONTROL`, `00001dcb` (R70). -/
  | displayControl (d c b : Bool)
  /-- `CURSORSHIFT`, `0001mr00` (R70). -/
  | cursorShift (m r : Bool)
  /-- `FUNCTIONSET`, `001lnf00` (R70). -/
  | functionSet (l n f : Bool)
  /-- `SETCGRAMADDR`, `01aaaaaa` (R70). -/
  | setCgramAddr (a : BitVec 6)
  /-- `SETDDRAMADDR`, `1aaaaaaa` (R70). -/
  | setDdramAddr (a : BitVec 7)
  /-- The boot routine, `initialize()` in the table (R141); the task bars that word as a name. -/
  | initializeOp
  /-- `clear()` (R121). -/
  | clear
  /-- `home()` (R122). -/
  | home
  /-- `setCursor(col, row)` (R123). -/
  | setCursor (col row : Nat)
  /-- `noDisplay()` (R124). -/
  | noDisplay
  /-- `display()` (R125). -/
  | display
  /-- `noCursor()` (R126). -/
  | noCursor
  /-- `cursor()` (R127). -/
  | cursor
  /-- `noBlink()` (R128). -/
  | noBlink
  /-- `blink()` (R129). -/
  | blink
  /-- `scrollDisplayLeft()` (R130). -/
  | scrollDisplayLeft
  /-- `scrollDisplayRight()` (R131). -/
  | scrollDisplayRight
  /-- `leftToRight()` (R132). -/
  | leftToRight
  /-- `rightToLeft()` (R133). -/
  | rightToLeft
  /-- `autoscroll()` (R134). -/
  | autoscroll
  /-- `noAutoscroll()` (R135). -/
  | noAutoscroll
  /-- `createChar(location, bitmap)` (R136). -/
  | createChar (location : Nat) (bitmap : List Byte)
  /-- `noBacklight()` (R137). -/
  | noBacklight
  /-- `backlight()` (R138). -/
  | backlight
  /-- `print(text)`, `text` a list of character codes (R139; 92_eei_decisions.md D16). -/
  | print (text : List Nat)
  /-- `write(byteValue)` (R140). -/
  | write (byteValue : Byte)
deriving DecidableEq, Repr

end Sys2Proof
end

