-- ==== Sys2Proof/WellFormed.lean ====
section
/-! DEFINITION. Which instructions and which parameters are well formed. -/

namespace Sys2Proof

/-- A character code fits the 8 bits a DAT request carries (92_eei_decisions.md D16). -/
def fitsByte (c : Nat) : Bool := decide (c < 256)

/-- An instruction's operands are such as its rule takes. Every operand field of an encoding is typed at its own
width, so the one check left is that each character of a text is an 8-bit code (R139; 92_eei_decisions.md D16).
(`setCursor`'s domain depends on `ROWS` and is checked where it runs: R123, `cursorAddress`.) -/
def Instr.wellFormed : Instr → Bool
  | .print text => text.all fitsByte
  | _ => true

/-- An instruction of format `PSEUDO`: a routine of the command layer, with no word of its own (R74, R76). -/
def Instr.isPseudo : Instr → Bool
  | .cmd _ | .dat _ | .nib _ | .blw _ | .xwr => false
  | .clearDisplay | .returnHome | .entryModeSet _ _ | .displayControl _ _ _ | .cursorShift _ _
  | .functionSet _ _ _ | .setCgramAddr _ | .setDdramAddr _ => false
  | _ => true

/-- The eight masks that have exactly one bit. -/
def oneHot (m : Byte) : Bool :=
  [0x01, 0x02, 0x04, 0x08, 0x10, 0x20, 0x40, 0x80].contains m

/-- The five masks of four adjacent bits. -/
def fourAdjacent (m : Byte) : Bool :=
  [0x0F, 0x1E, 0x3C, 0x78, 0xF0].contains m

/-- R3's constraint on the pin map: "four distinct single bits, none inside `P_DATA`", `P_DATA` four adjacent bits. -/
def PinMap.wf (p : PinMap) : Bool :=
  oneHot p.pRs && oneHot p.pRw && oneHot p.pEn && oneHot p.pBl && fourAdjacent p.pData &&
  p.pRs &&& p.pRw == 0 && p.pRs &&& p.pEn == 0 && p.pRs &&& p.pBl == 0 &&
  p.pRw &&& p.pEn == 0 && p.pRw &&& p.pBl == 0 && p.pEn &&& p.pBl == 0 &&
  p.pRs &&& p.pData == 0 && p.pRw &&& p.pData == 0 && p.pEn &&& p.pData == 0 && p.pBl &&& p.pData == 0

/-- R3's ranges: `COLS` positive, `ROWS` 1 to 4, four row offsets, the pin map well formed. -/
def Config.wf (c : Config) : Bool :=
  decide (0 < c.cols) && decide (1 ≤ c.rows) && decide (c.rows ≤ 4) && c.rowOffset.length == 4 && c.pins.wf

end Sys2Proof
end

