-- ==== Sys2Proof/Decode.lean ====
section
/-! DEFINITION. From words to instructions, total and rejecting by name, and back: the request word of R60 to R63
and the command byte of R70 and R71. -/

namespace Sys2Proof

/-- Why a word spells no instruction. The first four are the four cases of R63. -/
inductive DecodeError where
  /-- `op` is 0b101, 0b110 or 0b111 (R63). -/
  | reservedOp (op : BitVec 3)
  /-- NIB with `arg[7:4] != 0` (R63). -/
  | nibReservedBits
  /-- BLW with `arg[7:1] != 0` (R63). -/
  | blwReservedBits
  /-- XWR with `arg != 0` (R63). -/
  | xwrReservedBits
  /-- Two bytes whose upper five bits are not zero: no 11-bit word (R60). -/
  | notElevenBits
  /-- A byte that matches no `CMD8` row (R70). -/
  | noCommandRow
  /-- Neither one byte nor two. -/
  | wrongLength
deriving DecidableEq, Repr

/-! ## The request word -/

/-- `op = req[10:8]` (R60). -/
def reqOp (w : ReqWord) : BitVec 3 := w.extractLsb' 8 3

/-- `arg = req[7:0]` (R60). -/
def reqArg (w : ReqWord) : Byte := w.extractLsb' 0 8

/-- The opcode map of R61, with the reserved words of R63 rejected. -/
def decodeWord (w : ReqWord) : Except DecodeError Instr :=
  let a := reqArg w
  if reqOp w = 0b000 then .ok (.cmd a)
  else if reqOp w = 0b001 then .ok (.dat a)
  else if reqOp w = 0b010 then
    if a.extractLsb' 4 4 = 0 then .ok (.nib (a.extractLsb' 0 4)) else .error .nibReservedBits
  else if reqOp w = 0b011 then
    if a.extractLsb' 1 7 = 0 then .ok (.blw (a.getLsbD 0)) else .error .blwReservedBits
  else if reqOp w = 0b100 then
    if a = 0 then .ok .xwr else .error .xwrReservedBits
  else .error (.reservedOp (reqOp w))

/-- The request word of a primitive request (R61); no other instruction is one request word. -/
def encodeWord : Instr → Option ReqWord
  | .cmd v => some (0b000#3 ++ v)
  | .dat v => some (0b001#3 ++ v)
  | .nib n => some (0b010#3 ++ (0#4 ++ n))
  | .blw b => some (0b011#3 ++ (0#7 ++ BitVec.ofBool b))
  | .xwr => some (0b100#3 ++ 0#8)
  | _ => none

/-! ## The command byte -/

/-- A flag's mask when the flag is 1, else 0x00 (R71). -/
def flagMask (mask : Byte) (on : Bool) : Byte := if on then mask else 0

/-- `000001is` (R70). -/
def entryModeByte (t : CmdSet) (i s : Bool) : Byte :=
  t.entryModeSet ||| (flagMask t.entryLeft i ||| flagMask t.entryShiftIncrement s)

/-- `00001dcb` (R70). -/
def displayControlByte (t : CmdSet) (d c b : Bool) : Byte :=
  t.displayControl ||| (flagMask t.displayOn d ||| flagMask t.cursorOn c ||| flagMask t.blinkOn b)

/-- `0001mr00` (R70). -/
def cursorShiftByte (t : CmdSet) (m r : Bool) : Byte :=
  t.cursorShift ||| (flagMask t.displayMove m ||| flagMask t.moveRight r)

/-- `001lnf00` (R70). -/
def functionSetByte (t : CmdSet) (l n f : Bool) : Byte :=
  t.functionSet ||| (flagMask t.mode8Bit l ||| flagMask t.lines2 n ||| flagMask t.dots5x10 f)

/-- `01aaaaaa` (R70). -/
def cgramByte (t : CmdSet) (a : BitVec 6) : Byte := t.setCgramAddr ||| a.setWidth 8

/-- `1aaaaaaa` (R70). -/
def ddramByte (t : CmdSet) (a : BitVec 7) : Byte := t.setDdramAddr ||| a.setWidth 8

/-- The byte of a `CMD8` row (R70) under the command set `t`; no other instruction is one command byte. -/
def encodeCommand (t : CmdSet) : Instr → Option Byte
  | .clearDisplay => some t.clearDisplay
  | .returnHome => some t.returnHome
  | .entryModeSet i s => some (entryModeByte t i s)
  | .displayControl d c b => some (displayControlByte t d c b)
  | .cursorShift m r => some (cursorShiftByte t m r)
  | .functionSet l n f => some (functionSetByte t l n f)
  | .setCgramAddr a => some (cgramByte t a)
  | .setDdramAddr a => some (ddramByte t a)
  | _ => none

/-- `b` matches the row whose field bits are `fields` and whose code is `code`: `b & mask = match` with
`mask = ~fields` (R76). -/
def matchesRow (b fields code : Byte) : Bool := b &&& ~~~fields == code

/-- The `CMD8` row a byte matches under the command set `t` (R70, R76). The block itself never does this (R75).
DESIGN CHOICE (log 27): the spec does not constrain a `CMDSET` other than the listed one. Any is taken, and where rows of
one overlap, the first in R70's order that matches is read. -/
def decodeCommand (t : CmdSet) (b : Byte) : Except DecodeError Instr :=
  let on (mask : Byte) : Bool := b &&& mask != 0
  if matchesRow b 0 t.clearDisplay then .ok .clearDisplay
  else if matchesRow b 0 t.returnHome then .ok .returnHome
  else if matchesRow b (t.entryLeft ||| t.entryShiftIncrement) t.entryModeSet then
    .ok (.entryModeSet (on t.entryLeft) (on t.entryShiftIncrement))
  else if matchesRow b (t.displayOn ||| t.cursorOn ||| t.blinkOn) t.displayControl then
    .ok (.displayControl (on t.displayOn) (on t.cursorOn) (on t.blinkOn))
  else if matchesRow b (t.displayMove ||| t.moveRight) t.cursorShift then
    .ok (.cursorShift (on t.displayMove) (on t.moveRight))
  else if matchesRow b (t.mode8Bit ||| t.lines2 ||| t.dots5x10) t.functionSet then
    .ok (.functionSet (on t.mode8Bit) (on t.lines2) (on t.dots5x10))
  else if matchesRow b 0x3F t.setCgramAddr then .ok (.setCgramAddr (b.extractLsb' 0 6))
  else if matchesRow b 0x7F t.setDdramAddr then .ok (.setDdramAddr (b.extractLsb' 0 7))
  else .error .noCommandRow

/-! ## Bytes -/

/-- Decode what the table numbers: one byte is a command byte, two bytes (the first the less significant) are an
11-bit request word with five zero bits above it. -/
def decodeBytes : List Byte → Except DecodeError Instr
  | [b] => decodeCommand CmdSet.standard b
  | [lo, hi] => if hi.extractLsb' 3 5 = 0 then decodeWord (hi.extractLsb' 0 3 ++ lo) else .error .notElevenBits
  | _ => .error .wrongLength

/-- The bytes of an instruction that has a word: one for a `CMD8` row, two for a `REQ11` row. A `PSEUDO` row has no
word: it "expands" to requests (R74, R76; log 15). -/
def encode (i : Instr) : Option (List Byte) :=
  match encodeWord i with
  | some w => some [w.extractLsb' 0 8, 0#5 ++ w.extractLsb' 8 3]
  | none => (encodeCommand CmdSet.standard i).map fun b => [b]

/-- The bytes of a number of `nbits` bits, least significant first. -/
def layBytes (nbits w : Nat) : List Byte :=
  (List.range ((nbits + 7) / 8)).map fun k => BitVec.ofNat 8 (w >>> (8 * k))

/-- What the decoder reads from the table word `w` of `nbits` bits (8 for a `CMD8` row, 11 or 16 for a `REQ11` row). -/
def decodeTableWord (nbits w : Nat) : Option Instr :=
  match decodeBytes (layBytes nbits w) with
  | .ok i => some i
  | .error _ => none

end Sys2Proof
end

