-- ==== Sys2Proof/Machine/State.lean ====
section
/-! DEFINITION. The machine's state as plain data: the block NSEQ (R20), the command layer's shadow state (R26), the
hidden expander latch (R34), the inputs from the master, the host and the reset line, and the trace (R6). -/

namespace Sys2Proof.Machine

/-- A primitive request, the operand of one word on the request port (R61, R62). -/
inductive Request where
  | cmd (v : Byte)
  | dat (v : Byte)
  | nib (n : Nibble)
  | blw (b : Bool)
  | xwr
deriving DecidableEq, Repr

/-- The instruction a request is. -/
def Request.toInstr : Request → Instr
  | .cmd v => .cmd v
  | .dat v => .dat v
  | .nib n => .nib n
  | .blw b => .blw b
  | .xwr => .xwr

/-- The response word `RSP` (R72): a status, and the master's error value when a transfer failed. -/
inductive Response where
  /-- Every transfer completed and every wait ran out. -/
  | ok
  /-- A transfer failed; `e` is the master's error value, unchanged (R162). -/
  | xferFail (e : ErrVal)
  /-- The request word was illegal; nothing was done (R163). -/
  | illegalReq
deriving DecidableEq, Repr

/-- An event of the trace (R6). -/
inductive Event where
  /-- `XFER(a, b)`: the write of byte `b` to address `a` returned `ok`. -/
  | xfer (a : BusAddr) (b : Byte)
  /-- `XFAIL(a, b, e)`: the write returned `fail(e)`. -/
  | xfail (a : BusAddr) (b : Byte) (e : ErrVal)
  /-- `WAIT(n)`: at least `n` microseconds in which no transfer is issued. -/
  | wait (n : Micros)
  /-- `RSP(s)`: the block answered a request. -/
  | rsp (r : Response)
deriving DecidableEq, Repr

/-- The I2C master's verdict on one transfer (R5, R41). -/
inductive Answer where
  /-- The transaction completed. -/
  | ok
  /-- The transaction could not complete. `latched` says whether the byte reached the expander all the same, which
  the source does not say (R34, R167; log 3). -/
  | fail (e : ErrVal) (latched : Bool)
deriving DecidableEq, Repr

/-- Which row of R105's table the request in progress runs (log 9). -/
inductive SeqKind where
  /-- XWR and BLW: `T(0)`. -/
  | zero
  /-- NIB: one nibble write. -/
  | nibble
  /-- CMD and DAT: two nibble writes. -/
  | byte
deriving DecidableEq, Repr

/-- `DC`, the display-control flag group (R27). -/
structure DisplayControl where
  /-- `DC.D`, display on. -/
  d : Bool
  /-- `DC.C`, cursor on. -/
  c : Bool
  /-- `DC.B`, blink on. -/
  b : Bool
deriving DecidableEq, Repr

/-- `EM`, the entry-mode flag group (R28). -/
structure EntryMode where
  /-- `EM.ID`, left-to-right. -/
  i : Bool
  /-- `EM.S`, autoscroll. -/
  s : Bool
deriving DecidableEq, Repr

/-- `FS`, the function-set flag group (R29). -/
structure FunctionSet where
  /-- `FS.DL`, 8-bit interface. -/
  dl : Bool
  /-- `FS.N`, two display lines. -/
  n : Bool
  /-- `FS.F`, 5x10 font. -/
  f : Bool
deriving DecidableEq, Repr

/-- One thing a pseudo-operation does, in the order its expansion writes them (R73, R120, R141). -/
inductive HostAction where
  /-- Issue a request and wait for its response. -/
  | request (r : Request)
  /-- `HWAIT n`. -/
  | hwait (n : Micros)
  | setFs (v : FunctionSet)
  | setDc (v : DisplayControl)
  | setEm (v : EntryMode)
  /-- `INIT <- 1`. -/
  | markInit
deriving DecidableEq, Repr

/-- What the host is doing (R120). -/
inductive HostRoutine where
  /-- It issues the items of its program itself. -/
  | direct
  /-- It is inside a pseudo-operation, with these actions still to do. -/
  | routine (rest : List HostAction)
deriving DecidableEq, Repr

/-- One item of a host program (R73), the thing the host presents next. -/
inductive HostItem where
  /-- An 11-bit word on the request port, legal or not (R60). -/
  | word (w : ReqWord)
  /-- A command byte to be carried by a CMD request, read by its `CMD8` row (R70; log 14). -/
  | command (b : Byte)
  /-- `HWAIT n` (R73). -/
  | hwait (n : Micros)
  /-- A request or pseudo-operation by name (R73). -/
  | call (i : Instr)
deriving DecidableEq, Repr

/-- What a reset leaves open, drawn with it: whether a transfer it cuts short reached the expander, "the master's to
finish or not" (R182), and what the registers R180 leaves "unspecified" come up with (logs 3, 17). -/
structure ResetDraw where
  latched : Bool
  latchV : Byte
  latchM : Byte
  dc : DisplayControl
  em : EntryMode
  fs : FunctionSet
deriving DecidableEq, Repr

/-- The reset line, an input (R180 to R182). -/
inductive ResetLine where
  | released
  /-- Reset is asked for. -/
  | asserted (draw : ResetDraw)
deriving DecidableEq, Repr

/-- How far one step goes, an input (log 1). -/
inductive Grain where
  /-- One instruction, as far as the master's answers allow. -/
  | whole
  /-- One micro-operation of the block, or one action of the host: "NSEQ, which steps once per micro-operation"
  (00_scope.md section 7). -/
  | micro
deriving DecidableEq, Repr

/-- The whole machine. -/
structure State where
  /-- The parameters (R3); not state of the spec, and no step changes them (log 4). -/
  cfg : Config
  /-- `BL`, the backlight register (R21). -/
  bl : Bool
  /-- `LATCH_V`, the operand of the request in progress (R22). -/
  latchV : Byte
  /-- `LATCH_M`, its mode bits (R22). -/
  latchM : Byte
  /-- Which sequence `PHASE` indexes (R105; log 9). -/
  seq : SeqKind
  /-- `PHASE`, the index of the next micro-operation (R23). -/
  phase : BitVec 4
  /-- `BUSY`, 1 from acceptance of a request to its response (R24). -/
  busy : Bool
  /-- `DC` (R27). -/
  dc : DisplayControl
  /-- `EM` (R28). -/
  em : EntryMode
  /-- `FS` (R29). -/
  fs : FunctionSet
  /-- `INIT` (R30). -/
  init : Bool
  /-- `EXP_OUT`, the expander's output latch (R34). -/
  expOut : Byte
  /-- Every event so far, oldest first (R6). -/
  trace : List Event
  /-- The master's coming verdicts, next first; none left means it has not answered yet (R54; log 2). -/
  answers : List Answer
  /-- What the host presents next, first item first (R51, R73). -/
  program : List HostItem
  /-- The pseudo-operation in progress (R120). -/
  host : HostRoutine
  /-- The reset line (R180). -/
  rst : ResetLine
  /-- How far one step goes (log 1). -/
  grain : Grain
deriving DecidableEq, Repr

/-- Why a step stops with a fault. -/
inductive Fault where
  /-- Raised by `step` alone, at a busy block whose `PHASE` is not inside its sequence. R23 excludes it ("It never
  wraps, since no sequence is longer than 10") and gives it no effect; no run from reset reaches it. Safe (log 22). -/
  | phaseOutOfSequence
deriving DecidableEq, Repr

/-- Why an instruction has no meaning. -/
inductive Refusal where
  /-- An instruction of the table that has no meaning yet: raised by `exec`'s own arms only. Safe. -/
  | notModelled (mnemonic : String)
  /-- Raised by `setCursor` where the row index leaves the offset table or the address exceeds 0x7F: "the source
  gives no meaning ... and a model refuses" (R123; 92_eei_decisions.md D17). Safe. -/
  | setCursorOutOfDomain
  /-- Raised by `print` at a character that does not fit 8 bits: "is refused" (92_eei_decisions.md D16). Safe. -/
  | wideCharacter
deriving DecidableEq, Repr

/-- The state after reset of a block with parameters `c` (R36, R180). `d` gives what R36 leaves unspecified and `out`
what the expander holds. -/
def State.resetWith (c : Config) (d : ResetDraw) (out : Byte) : State :=
  { cfg := c
    bl := c.blReset
    latchV := d.latchV
    latchM := d.latchM
    seq := .zero
    phase := 0
    busy := false
    dc := d.dc
    em := d.em
    fs := d.fs
    init := false
    expOut := out
    trace := []
    answers := []
    program := []
    host := .direct
    rst := .released
    grain := .whole }

/-- The values the model names for what R36 leaves unspecified after power-up: every bit 0 (log 7). -/
def ResetDraw.named : ResetDraw :=
  { latched := false
    latchV := 0
    latchM := 0
    dc := { d := false, c := false, b := false }
    em := { i := false, s := false }
    fs := { dl := false, n := false, f := false } }

/-- The machine right after reset, every parameter at its default (R36; `EXP_OUT` is unknown there, log 7). -/
def State.reset : State := State.resetWith Config.standard ResetDraw.named 0

end Sys2Proof.Machine
end

