-- ==== Sys2Proof/Machine/Flags.lean ====
section
/-! DEFINITION. The command layer's flag groups: how each is computed and packed into its command byte (R26 to R29,
R70, R71, R143). The block itself has no condition codes (R24). -/

namespace Sys2Proof.Machine

/-- `0x08 | DC_bits` (R27, R70). -/
def dcByte (t : CmdSet) (v : DisplayControl) : Byte := displayControlByte t v.d v.c v.b

/-- `0x04 | EM_bits` (R28, R70). -/
def emByte (t : CmdSet) (v : EntryMode) : Byte := entryModeByte t v.i v.s

/-- `0x20 | FS_bits` (R29, R70). -/
def fsByte (t : CmdSet) (v : FunctionSet) : Byte := functionSetByte t v.dl v.n v.f

/-- `FS` as a function of the parameters: `DL` 0, `N` 1 when `ROWS > 1`, `F` 1 when the font is 5x10 and `ROWS = 1`
(R29, R141 step 4; 92_eei_decisions.md D15). -/
def functionSetOf (c : Config) : FunctionSet :=
  { dl := false, n := decide (c.rows > 1), f := decide (c.font = .f5x10) && decide (c.rows = 1) }

/-- `DC` after the boot routine: display on, cursor and blink off (R27, R141 step 5). -/
def bootDc : DisplayControl := { d := true, c := false, b := false }

/-- `EM` after the boot routine: left-to-right, no autoscroll (R28, R141 step 7). -/
def bootEm : EntryMode := { i := true, s := false }

/-- `CURSORSHIFT | DISPLAYMOVE | MOVELEFT` or `MOVERIGHT` (R130, R131). -/
def scrollByte (t : CmdSet) (right : Bool) : Byte := cursorShiftByte t true right

end Sys2Proof.Machine
end

