-- ==== Sys2Proof/Machine/Operands.lean ====
section
/-! DEFINITION. Operand forms: nibble assembly (R62, R67), mode bits (R68), the backlight merge (R69), and the
command layer's operands (R123, R136, R143). -/

namespace Sys2Proof.Machine

/-! ## The expander byte -/

/-- The high nibble of a byte, `v[7:4]` (R4). -/
def hiNibble (v : Byte) : Nibble := v.extractLsb' 4 4

/-- The low nibble of a byte, `v[3:0]` (R4). -/
def loNibble (v : Byte) : Nibble := v.extractLsb' 0 4

/-- The position of the lowest line of `P_DATA`: 4 for the default 0xF0 (R3, R64; log 6). -/
def dataShift (p : PinMap) : Nat :=
  if p.pData = 0x0F then 0
  else if p.pData = 0x1E then 1
  else if p.pData = 0x3C then 2
  else if p.pData = 0x78 then 3
  else 4

/-- A nibble on the data lines, every other bit zero. With `P_DATA` = 0xF0 this is `n << 4`, so that
`place (hiNibble v) = v & 0xF0` and `place (loNibble v) = (v << 4) & 0xF0` (R62, R67). -/
def place (p : PinMap) (n : Nibble) : Byte := n.setWidth 8 <<< dataShift p

/-- `bl_mask` (R69). -/
def blMask (p : PinMap) (bl : Bool) : Byte := if bl then p.pBl else 0

/-- The backlight merge, `b = d | bl_mask` (R69). -/
def merge (p : PinMap) (bl : Bool) (d : Byte) : Byte := d ||| blMask p bl

/-! ## What acceptance of a request latches -/

/-- The operand field `arg` of a request, which `LATCH_V` takes (R22, R62). -/
def Request.operand : Request → Byte
  | .cmd v => v
  | .dat v => v
  | .nib n => n.setWidth 8
  | .blw b => (BitVec.ofBool b).setWidth 8
  | .xwr => 0

/-- "`LATCH_M` is `P_RS` for DAT and `0x00` for CMD and NIB" (R22, R68); the zero-data byte has no mode bits. -/
def Request.mode (p : PinMap) : Request → Byte
  | .dat _ => p.pRs
  | .cmd _ | .nib _ | .blw _ | .xwr => 0

/-- The row of R105's table a request runs. -/
def Request.seqKind : Request → SeqKind
  | .cmd _ | .dat _ => .byte
  | .nib _ => .nibble
  | .blw _ | .xwr => .zero

/-- The backlight register after acceptance: `BL <- b` for BLW, before its transfer (R95, R105). -/
def Request.backlight (bl : Bool) : Request → Bool
  | .blw b => b
  | .cmd _ | .dat _ | .nib _ | .xwr => bl

/-! ## `setCursor` -/

/-- The clamp of R123: "strictly greater; row = ROWS is NOT clamped". -/
def clampRow (rows row : Nat) : Nat := if row > rows then rows - 1 else row

/-- `a = col + ROW_OFFSET[r]`, where the row index is inside the table and the sum at most 0x7F; otherwise the source
gives no meaning (R123, R143; 92_eei_decisions.md D17). -/
def cursorAddress (c : Config) (col row : Nat) : Option (BitVec 7) :=
  match c.rowOffset[clampRow c.rows row]? with
  | some off => if col + off.toNat ≤ 0x7F then some (BitVec.ofNat 7 (col + off.toNat)) else none
  | none => none

/-! ## `createChar` -/

/-- `(location & 0x7) << 3`, the glyph's CGRAM address (R136, R143). -/
def glyphAddress (location : Nat) : BitVec 6 := BitVec.ofNat 6 ((location &&& 0x7) <<< 3)

/-! ## `print` -/

/-- The character codes of a text as bytes, when each fits (R139; 92_eei_decisions.md D16). -/
def textBytes (text : List Nat) : Option (List Byte) :=
  if text.all fun c => decide (c < 256) then some (text.map (BitVec.ofNat 8)) else none

end Sys2Proof.Machine
end

