-- ==== Sys2Proof/Machine/Ops.lean ====
section
/-! DEFINITION. The shared operations: one I2C write, the micro-routines of R90 to R93, the micro-operation step and
the run of a request, the two error responses (R163, R166), the run of a host routine (R120), and reset (R180). -/

namespace Sys2Proof.Machine

/-! ## Named updates -/

/-- Add an event to the trace (R6). -/
def State.emit (s : State) (e : Event) : State := { s with trace := s.trace ++ [e] }

/-- A completed micro-operation "adds 1" to `PHASE` (R23). -/
def State.nextPhase (s : State) : State := { s with phase := s.phase + 1 }

/-- Say what the host has still to do. -/
def State.setHost (s : State) (h : HostRoutine) : State := { s with host := h }

/-- Replace what the host presents next. -/
def State.setProgram (s : State) (p : List HostItem) : State := { s with program := p }

/-- The next verdict is used up, and the expander's latch holds `out`. -/
def State.answered (s : State) (rest : List Answer) (out : Byte) : State :=
  { s with answers := rest, expOut := out }

/-! ## Micro-operations -/

/-- One micro-operation of R105: a transfer of the byte `d` before the merge, or a wait. -/
inductive MicroOp where
  | transfer (d : Byte)
  | wait (n : Micros)
deriving DecidableEq, Repr

/-- What became of a micro-operation. -/
inductive Ran where
  /-- It completed. -/
  | done (s : State)
  /-- Its transfer failed with this error value. -/
  | failed (e : ErrVal) (s : State)
  /-- The master has not answered its transfer (R54). -/
  | waiting
deriving DecidableEq, Repr

/-- `I2CWrite(a, b)` (R5, R41): one blocking write of one byte, and the master's verdict on it. On `ok` the trace gains
`XFER` and the expander holds `b` (R34); on `fail(e)` it gains `XFAIL`, and the expander holds the old byte or `b`. -/
def i2cWrite (a : BusAddr) (b : Byte) (s : State) : Ran :=
  match s.answers with
  | [] => .waiting
  | .ok :: rest => .done ((s.answered rest b).emit (.xfer a b))
  | .fail e latched :: rest => .failed e ((s.answered rest (if latched then b else s.expOut)).emit (.xfail a b e))

/-- `expander_write(d)` (R90): merge the backlight bit and write one byte to `I2C_ADDR`. -/
def expanderWrite (d : Byte) (s : State) : Ran :=
  i2cWrite s.cfg.i2cAddr (merge s.cfg.pins s.bl d) s

/-- `wait_us(n)` (R5, R7): an event, and no other effect. -/
def waitUs (n : Micros) (s : State) : State := s.emit (.wait n)

/-- `pulse_enable(d)` (R91). -/
def pulseEnable (c : Config) (d : Byte) : List MicroOp :=
  [.transfer (d ||| c.pins.pEn), .wait c.delays.tEnHold, .transfer (d &&& ~~~c.pins.pEn), .wait c.delays.tSettle]

/-- `write4(d)` (R92). -/
def write4 (c : Config) (d : Byte) : List MicroOp := .transfer d :: pulseEnable c d

/-- `send(v, mode)` (R93): high nibble first (R45). -/
def sendByte (c : Config) (v mode : Byte) : List MicroOp :=
  write4 c (place c.pins (hiNibble v) ||| mode) ++ write4 c (place c.pins (loNibble v) ||| mode)

/-- The sequences of R105, from what the block has latched. -/
def opSequence (c : Config) (k : SeqKind) (v mode : Byte) : List MicroOp :=
  match k with
  | .zero => [.transfer 0]
  | .nibble => write4 c (place c.pins (loNibble v) ||| mode)
  | .byte => sendByte c v mode

/-- The sequence of the request in progress. -/
def State.ops (s : State) : List MicroOp := opSequence s.cfg s.seq s.latchV s.latchM

/-- Its part from `PHASE` on (R23). -/
def State.remaining (s : State) : List MicroOp := s.ops.drop s.phase.toNat

/-! ## Responses and the two errors -/

/-- Give the response and go idle: `PHASE` returns to 0, `BUSY` is cleared (R23, R24, R72, R99). -/
def State.respond (s : State) (r : Response) : State :=
  { s with trace := s.trace ++ [.rsp r], phase := 0, busy := false }

/-- `INIT` after a response: "0 after reset and after any failure" (R30, R120; 92_eei_decisions.md D12, D14). An illegal
word is no failure of a transfer and changes no state (R163). -/
def initAfter (r : Response) (init : Bool) : Bool :=
  match r with
  | .xferFail _ => false
  | .ok | .illegalReq => init

/-- The host at a response that is not OK: the pseudo-operation stops (R120) and so does the program (R73; log 12). -/
def State.stopHost (s : State) (r : Response) : State :=
  { s with init := initAfter r s.init, host := .direct, program := [] }

/-- TAKING AN ERROR, the shared operation: answer `r`, which is not OK, go idle, and the host stops. Nothing is saved,
nothing is undone, and there is no return from it (R166 to R168). -/
def takeError (r : Response) (s : State) : State := (s.respond r).stopHost r

/-- Transfer failure (R102, R166): no later micro-operation, `BL` as it is, `PHASE <- 0`, the response with `e`, and
`INIT <- 0` on the host's side (D12). -/
def takeXferFail (e : ErrVal) (s : State) : State := takeError (.xferFail e) s

/-- An illegal request word, rejected at acceptance: no transfer, no wait, no state change (R163). -/
def rejectIllegal (s : State) : State := takeError .illegalReq s

/-! ## Running a request -/

/-- One micro-operation (R105); a completed one advances `PHASE` (R23). -/
def runOp (op : MicroOp) (s : State) : Ran :=
  match op with
  | .wait n => .done (waitUs n s).nextPhase
  | .transfer d =>
    match expanderWrite d s with
    | .done s' => .done s'.nextPhase
    | .failed e s' => .failed e s'
    | .waiting => .waiting

/-- The micro-operations that remain, in order, to the response, the first failure (R102) or a transfer the master has
not answered, where the block stays busy (R54). -/
def runOps : List MicroOp → State → State
  | [], s => s.respond .ok
  | op :: ops, s =>
    match runOp op s with
    | .done s' => runOps ops s'
    | .failed e s' => takeXferFail e s'
    | .waiting => s

/-- The block's own step: one micro-operation of the request in progress (R23), and the response with the last. -/
def microStep (s : State) : State :=
  match s.remaining with
  | [] => s
  | op :: ops =>
    match runOp op s with
    | .done s' => if ops = [] then s'.respond .ok else s'
    | .failed e s' => takeXferFail e s'
    | .waiting => s

/-- The request in progress, as far as the master answers: `microStep` iterated (log 1). -/
def runBlock (s : State) : State := runOps s.remaining s

/-- Acceptance of a request: operand and mode are latched, `PHASE` is 0, `BUSY` is set, and a BLW writes `BL`
(R22 to R24, R95, R99). -/
def State.accept (s : State) (r : Request) : State :=
  { s with
    bl := r.backlight s.bl
    latchV := r.operand
    latchM := r.mode s.cfg.pins
    seq := r.seqKind
    phase := 0
    busy := true }

/-- Accept a request and run it (R99). -/
def runRequest (r : Request) (s : State) : State := runBlock (s.accept r)

/-! ## Running a pseudo-operation -/

/-- One action of a host routine. -/
def perform (a : HostAction) (s : State) : State :=
  match a with
  | .request r => runRequest r s
  | .hwait n => waitUs n s
  | .setFs v => { s with fs := v }
  | .setDc v => { s with dc := v }
  | .setEm v => { s with em := v }
  | .markInit => { s with init := true }

/-- A host routine, action by action (R120). It stops where a request is in progress, to wait for its response, and where
a response is not OK (`stopHost` has then put the host back to `direct`); otherwise it goes on. -/
def runRoutine : List HostAction → State → State
  | [], s => s.setHost .direct
  | a :: rest, s =>
    let s' := perform a (s.setHost (.routine rest))
    match s'.busy, s'.host with
    | false, .routine _ => runRoutine rest s'
    | _, _ => s'

/-- Take up again a request, and the routine it belongs to, at a transfer the master had not answered (log 1). -/
def resume (s : State) : State :=
  let s' := runBlock s
  match s'.busy, s'.host with
  | false, .routine rest => runRoutine rest s'
  | _, _ => s'

/-! ## The grain of a step -/

/-- Begin a request: run it, or only accept it, as the grain says (log 1). -/
def beginRequest (r : Request) (s : State) : State :=
  match s.grain with
  | .whole => runRequest r s
  | .micro => s.accept r

/-- Begin a pseudo-operation: run it, or only enter it. -/
def beginRoutine (actions : List HostAction) (s : State) : State :=
  match s.grain with
  | .whole => runRoutine actions s
  | .micro => s.setHost (.routine actions)

/-- Go on with the request in progress: to the next point where the master is silent, or by one micro-operation. -/
def goOn (s : State) : State :=
  match s.grain with
  | .whole => resume s
  | .micro => microStep s

/-- One action of a host routine at the micro grain: a request is only accepted, and its micro-operations follow. -/
def startAction (a : HostAction) (s : State) : State :=
  match a with
  | .request r => s.accept r
  | .hwait _ | .setFs _ | .setDc _ | .setEm _ | .markInit => perform a s

/-- Go on with a routine whose last request has been answered: all that is left of it, or its next action. -/
def goOnRoutine (actions : List HostAction) (s : State) : State :=
  match s.grain, actions with
  | .whole, actions => runRoutine actions s
  | .micro, [] => s.setHost .direct
  | .micro, a :: rest => startAction a (s.setHost (.routine rest))

/-! ## Instructions -/

/-- The machine can take an instruction: the block is idle and the host is in no routine (R99, R120). -/
def State.ready (s : State) : Bool := !s.busy && s.host == .direct

/-- Run an instruction when the machine is ready; otherwise it stays presented, in front of the program: "While it is
set the block accepts no request" (R24; log 13). -/
def whenReady (i : Instr) (s : State) (go : State → Host.Outcome State Fault Refusal) :
    Host.Outcome State Fault Refusal :=
  if s.ready then go s else .next (s.setProgram (.call i :: s.program))

/-- A primitive request (R99). -/
def execRequest (i : Instr) (r : Request) (s : State) : Host.Outcome State Fault Refusal :=
  whenReady i s fun s => .next (beginRequest r s)

/-- A pseudo-operation: its shadow update first, then its requests and waits (R120). -/
def execRoutine (i : Instr) (actions : State → List HostAction) (s : State) :
    Host.Outcome State Fault Refusal :=
  whenReady i s fun s => .next (beginRoutine (actions s) s)

/-- A host wait between requests (R73): it appears in the trace and orders nothing (R50). -/
def hostWait (n : Micros) (s : State) : State := waitUs n s

/-! ## Reset -/

/-- The byte on the bus of a transfer that is outstanding, if one is (R54). -/
def State.outstanding (s : State) : Option Byte :=
  if s.busy then
    match s.remaining with
    | .transfer d :: _ => some (merge s.cfg.pins s.bl d)
    | _ => none
  else none

/-- Reset of the block (R180 to R182): the state of R36, no transfer, no wait, no response. What R180 leaves open comes
with the reset (`ResetDraw`). The expander is not touched, but an outstanding transfer may still reach it; the trace,
the master's answers and the grain are not the block's and stay. What the host presents is dropped, as at a failure: "the
host must run `initialize` again" (R182; log 17). -/
def blockReset (d : ResetDraw) (s : State) : State :=
  { State.resetWith s.cfg d (if d.latched then s.outstanding.getD s.expOut else s.expOut) with
    trace := s.trace
    answers := s.answers
    grain := s.grain }

end Sys2Proof.Machine
end

