-- ==== Sys2Proof/Machine/Boot.lean ====
section
/-! DEFINITION. The boot routine (41_command_layer.md R141). -/

namespace Sys2Proof.Machine

/-- The eight steps of R141, "in strict order". -/
def bootActions (c : Config) : List HostAction :=
  [ .hwait c.delays.tPowerup,
    .request .xwr, .hwait c.delays.tExpReset,
    .request (.nib 0x3), .hwait c.delays.tHs1,
    .request (.nib 0x3), .hwait c.delays.tHs2,
    .request (.nib 0x3), .hwait c.delays.tHs3,
    .request (.nib 0x2),
    .setFs (functionSetOf c), .request (.cmd (fsByte c.cmd (functionSetOf c))),
    .setDc bootDc, .request (.cmd (dcByte c.cmd bootDc)),
    .request (.cmd c.cmd.clearDisplay), .hwait c.delays.tLongCmd,
    .setEm bootEm, .request (.cmd (emByte c.cmd bootEm)),
    .request (.cmd c.cmd.returnHome), .hwait c.delays.tLongCmd,
    .markInit ]

/-- The boot routine, `initialize()` of the table (R141). -/
def execInitializeOp (s : State) : Host.Outcome State Fault Refusal :=
  execRoutine .initializeOp (fun s => bootActions s.cfg) s

end Sys2Proof.Machine
end

