-- ==== Sys2Proof/Machine/CommandBytes.lean ====
section
/-! DEFINITION. The eight command bytes of R70: each is the CMD request that carries it (R75, R97; log 14). No shadow
state is written ("State written: none", R97), and no wait is added for the slow commands (R187). -/

namespace Sys2Proof.Machine

/-- CLEARDISPLAY (R70). The wait of R187 is the host's. -/
def execClearDisplay (s : State) : Host.Outcome State Fault Refusal :=
  execRequest .clearDisplay (.cmd s.cfg.cmd.clearDisplay) s

/-- RETURNHOME (R70). The wait of R187 is the host's. -/
def execReturnHome (s : State) : Host.Outcome State Fault Refusal :=
  execRequest .returnHome (.cmd s.cfg.cmd.returnHome) s

/-- ENTRYMODESET (R70, R71). -/
def execEntryModeSet (dir shift : Bool) (s : State) : Host.Outcome State Fault Refusal :=
  execRequest (.entryModeSet dir shift) (.cmd (entryModeByte s.cfg.cmd dir shift)) s

/-- DISPLAYCONTROL (R70, R71). -/
def execDisplayControl (d c b : Bool) (s : State) : Host.Outcome State Fault Refusal :=
  execRequest (.displayControl d c b) (.cmd (displayControlByte s.cfg.cmd d c b)) s

/-- CURSORSHIFT (R70, R71). -/
def execCursorShift (m r : Bool) (s : State) : Host.Outcome State Fault Refusal :=
  execRequest (.cursorShift m r) (.cmd (cursorShiftByte s.cfg.cmd m r)) s

/-- FUNCTIONSET (R70, R71). That the host must not send it outside the boot routine (R193) is the host's duty, not the
block's check (log 20). -/
def execFunctionSet (l n f : Bool) (s : State) : Host.Outcome State Fault Refusal :=
  execRequest (.functionSet l n f) (.cmd (functionSetByte s.cfg.cmd l n f)) s

/-- SETCGRAMADDR (R70). -/
def execSetCgramAddr (a : BitVec 6) (s : State) : Host.Outcome State Fault Refusal :=
  execRequest (.setCgramAddr a) (.cmd (cgramByte s.cfg.cmd a)) s

/-- SETDDRAMADDR (R70). -/
def execSetDdramAddr (a : BitVec 7) (s : State) : Host.Outcome State Fault Refusal :=
  execRequest (.setDdramAddr a) (.cmd (ddramByte s.cfg.cmd a)) s

end Sys2Proof.Machine
end

