-- ==== Sys2Proof/Machine/Control.lean ====
section
/-! DEFINITION. The command layer's clear, home, cursor, display-control, scrolling and entry-mode operations
(41_command_layer.md R121 to R135). -/

namespace Sys2Proof.Machine

/-- `clear()` (R121): the command and the wait that is part of the operation. -/
def execClear (s : State) : Host.Outcome State Fault Refusal :=
  execRoutine .clear (fun s => [.request (.cmd s.cfg.cmd.clearDisplay), .hwait s.cfg.delays.tLongCmd]) s

/-- `home()` (R122). -/
def execHome (s : State) : Host.Outcome State Fault Refusal :=
  execRoutine .home (fun s => [.request (.cmd s.cfg.cmd.returnHome), .hwait s.cfg.delays.tLongCmd]) s

/-- `setCursor(col, row)` (R123); refused outside its domain (92_eei_decisions.md D17). -/
def execSetCursor (col row : Nat) (s : State) : Host.Outcome State Fault Refusal :=
  whenReady (.setCursor col row) s fun s =>
    match cursorAddress s.cfg col row with
    | some a => .next (beginRoutine [.request (.cmd (ddramByte s.cfg.cmd a))] s)
    | none => .refused .setCursorOutOfDomain

/-- Write `DC` and send the whole group (R27, R120; 41_command_layer.md section 4). -/
def sendDc (s : State) (v : DisplayControl) : List HostAction := [.setDc v, .request (.cmd (dcByte s.cfg.cmd v))]

/-- `noDisplay()` (R124). -/
def execNoDisplay (s : State) : Host.Outcome State Fault Refusal :=
  execRoutine .noDisplay (fun s => sendDc s { s.dc with d := false }) s

/-- `display()` (R125). -/
def execDisplay (s : State) : Host.Outcome State Fault Refusal :=
  execRoutine .display (fun s => sendDc s { s.dc with d := true }) s

/-- `noCursor()` (R126). -/
def execNoCursor (s : State) : Host.Outcome State Fault Refusal :=
  execRoutine .noCursor (fun s => sendDc s { s.dc with c := false }) s

/-- `cursor()` (R127). -/
def execCursor (s : State) : Host.Outcome State Fault Refusal :=
  execRoutine .cursor (fun s => sendDc s { s.dc with c := true }) s

/-- `noBlink()` (R128). -/
def execNoBlink (s : State) : Host.Outcome State Fault Refusal :=
  execRoutine .noBlink (fun s => sendDc s { s.dc with b := false }) s

/-- `blink()` (R129). -/
def execBlink (s : State) : Host.Outcome State Fault Refusal :=
  execRoutine .blink (fun s => sendDc s { s.dc with b := true }) s

/-- `scrollDisplayLeft()` (R130): "stateless one-shot command". -/
def execScrollDisplayLeft (s : State) : Host.Outcome State Fault Refusal :=
  execRoutine .scrollDisplayLeft (fun s => [.request (.cmd (scrollByte s.cfg.cmd false))]) s

/-- `scrollDisplayRight()` (R131). -/
def execScrollDisplayRight (s : State) : Host.Outcome State Fault Refusal :=
  execRoutine .scrollDisplayRight (fun s => [.request (.cmd (scrollByte s.cfg.cmd true))]) s

/-- Write `EM` and send the whole group (R28, R120; 41_command_layer.md section 6). -/
def sendEm (s : State) (v : EntryMode) : List HostAction := [.setEm v, .request (.cmd (emByte s.cfg.cmd v))]

/-- `leftToRight()` (R132). -/
def execLeftToRight (s : State) : Host.Outcome State Fault Refusal :=
  execRoutine .leftToRight (fun s => sendEm s { s.em with i := true }) s

/-- `rightToLeft()` (R133). -/
def execRightToLeft (s : State) : Host.Outcome State Fault Refusal :=
  execRoutine .rightToLeft (fun s => sendEm s { s.em with i := false }) s

/-- `autoscroll()` (R134). -/
def execAutoscroll (s : State) : Host.Outcome State Fault Refusal :=
  execRoutine .autoscroll (fun s => sendEm s { s.em with s := true }) s

/-- `noAutoscroll()` (R135). -/
def execNoAutoscroll (s : State) : Host.Outcome State Fault Refusal :=
  execRoutine .noAutoscroll (fun s => sendEm s { s.em with s := false }) s

end Sys2Proof.Machine
end

