-- ==== Sys2Proof/Machine/Primitives.lean ====
section
/-! DEFINITION. The five primitive requests of the block (40_primitives.md R94 to R98). -/

namespace Sys2Proof.Machine

/-- CMD (R97): `send(v, 0x00)`. -/
def execCmd (v : Byte) (s : State) : Host.Outcome State Fault Refusal := execRequest (.cmd v) (.cmd v) s

/-- DAT (R98): `send(v, P_RS)`. -/
def execDat (v : Byte) (s : State) : Host.Outcome State Fault Refusal := execRequest (.dat v) (.dat v) s

/-- NIB (R96): `write4((n << 4) & 0xF0)`, mode bits 0. -/
def execNib (n : Nibble) (s : State) : Host.Outcome State Fault Refusal := execRequest (.nib n) (.nib n) s

/-- BLW (R95): `BL <- b`, then `expander_write(0x00)`. -/
def execBlw (b : Bool) (s : State) : Host.Outcome State Fault Refusal := execRequest (.blw b) (.blw b) s

/-- XWR (R94): `expander_write(0x00)`. -/
def execXwr (s : State) : Host.Outcome State Fault Refusal := execRequest .xwr .xwr s

end Sys2Proof.Machine
end

