-- ==== Sys2Proof/Machine/Text.lean ====
section
/-! DEFINITION. The command layer's glyph, backlight and text operations (41_command_layer.md R136 to R140). -/

namespace Sys2Proof.Machine

/-- Data bytes one after another, no address between them (R53, R136, R139). -/
def sendData (bytes : List Byte) : List HostAction := bytes.map fun b => .request (.dat b)

/-- `createChar(location, bitmap)` (R136): "every byte of the list is sent as it is, in order". -/
def execCreateChar (location : Nat) (bitmap : List Byte) (s : State) : Host.Outcome State Fault Refusal :=
  execRoutine (.createChar location bitmap)
    (fun s => .request (.cmd (cgramByte s.cfg.cmd (glyphAddress location))) :: sendData bitmap) s

/-- `noBacklight()` (R137). -/
def execNoBacklight (s : State) : Host.Outcome State Fault Refusal :=
  execRoutine .noBacklight (fun _ => [.request (.blw false)]) s

/-- `backlight()` (R138). -/
def execBacklight (s : State) : Host.Outcome State Fault Refusal :=
  execRoutine .backlight (fun _ => [.request (.blw true)]) s

/-- `print(text)` (R139); a character that does not fit 8 bits is refused (92_eei_decisions.md D16). -/
def execPrint (text : List Nat) (s : State) : Host.Outcome State Fault Refusal :=
  whenReady (.print text) s fun s =>
    match textBytes text with
    | some bytes => .next (beginRoutine (sendData bytes) s)
    | none => .refused .wideCharacter

/-- `write(byteValue)` (R140). -/
def execWrite (byteValue : Byte) (s : State) : Host.Outcome State Fault Refusal :=
  execRoutine (.write byteValue) (fun _ => sendData [byteValue]) s

end Sys2Proof.Machine
end

