-- ==== Sys2Proof/Machine/Dispatch.lean ====
section
/-! DEFINITION. One arm for each constructor of Instr: a direct call of its meaning. -/

namespace Sys2Proof.Machine

-- The meaning of every instruction.
def exec (i : Instr) (s : State) : Host.Outcome State Fault Refusal :=
  match i with
  | .cmd v => Sys2Proof.Machine.execCmd v s
  | .dat v => Sys2Proof.Machine.execDat v s
  | .nib n => Sys2Proof.Machine.execNib n s
  | .blw b => Sys2Proof.Machine.execBlw b s
  | .xwr => Sys2Proof.Machine.execXwr s
  | .clearDisplay => Sys2Proof.Machine.execClearDisplay s
  | .returnHome => Sys2Proof.Machine.execReturnHome s
  | .entryModeSet dir shift => Sys2Proof.Machine.execEntryModeSet dir shift s
  | .displayControl d c b => Sys2Proof.Machine.execDisplayControl d c b s
  | .cursorShift m r => Sys2Proof.Machine.execCursorShift m r s
  | .functionSet l n f => Sys2Proof.Machine.execFunctionSet l n f s
  | .setCgramAddr a => Sys2Proof.Machine.execSetCgramAddr a s
  | .setDdramAddr a => Sys2Proof.Machine.execSetDdramAddr a s
  | .initializeOp => Sys2Proof.Machine.execInitializeOp s
  | .clear => Sys2Proof.Machine.execClear s
  | .home => Sys2Proof.Machine.execHome s
  | .setCursor col row => Sys2Proof.Machine.execSetCursor col row s
  | .noDisplay => Sys2Proof.Machine.execNoDisplay s
  | .display => Sys2Proof.Machine.execDisplay s
  | .noCursor => Sys2Proof.Machine.execNoCursor s
  | .cursor => Sys2Proof.Machine.execCursor s
  | .noBlink => Sys2Proof.Machine.execNoBlink s
  | .blink => Sys2Proof.Machine.execBlink s
  | .scrollDisplayLeft => Sys2Proof.Machine.execScrollDisplayLeft s
  | .scrollDisplayRight => Sys2Proof.Machine.execScrollDisplayRight s
  | .leftToRight => Sys2Proof.Machine.execLeftToRight s
  | .rightToLeft => Sys2Proof.Machine.execRightToLeft s
  | .autoscroll => Sys2Proof.Machine.execAutoscroll s
  | .noAutoscroll => Sys2Proof.Machine.execNoAutoscroll s
  | .createChar location bitmap => Sys2Proof.Machine.execCreateChar location bitmap s
  | .noBacklight => Sys2Proof.Machine.execNoBacklight s
  | .backlight => Sys2Proof.Machine.execBacklight s
  | .print text => Sys2Proof.Machine.execPrint text s
  | .write byteValue => Sys2Proof.Machine.execWrite byteValue s

end Sys2Proof.Machine
end

