-- ==== Sys2Proof/Machine/Fetch.lean ====
section
/-! DEFINITION. What the host presents next, and how the machine reads and runs it (R51, R60, R73, R99). -/

namespace Sys2Proof.Machine

/-- What an item of a host program is. -/
inductive Fetched where
  /-- An instruction to run. -/
  | instr (i : Instr)
  /-- An illegal request word (R63). -/
  | illegal
  /-- `HWAIT n` (R73). -/
  | hwait (n : Micros)
deriving DecidableEq, Repr

/-- Read one item. A command byte that matches no `CMD8` row goes out as the plain CMD it is: "CMD accepts every `v`"
(R75; log 14). -/
def readItem (t : CmdSet) (item : HostItem) : Fetched :=
  match item with
  | .word w =>
    match decodeWord w with
    | .ok i => .instr i
    | .error _ => .illegal
  | .command b =>
    match decodeCommand t b with
    | .ok i => .instr i
    | .error _ => .instr (.cmd b)
  | .hwait n => .hwait n
  | .call i => .instr i

/-- Run one item of the host's program; `s` is the state with the item consumed (R51). -/
def runItem (item : HostItem) (s : State) : Host.Outcome State Fault Refusal :=
  match readItem s.cfg.cmd item with
  | .instr i => exec i s
  | .illegal => .next (rejectIllegal s)
  | .hwait n => .next (hostWait n s)

/-- A machine that is not being reset (log 1). A busy block goes on with its request (R99); an idle one takes up the
routine its host is in, or the next item of the program; with nothing presented it "does nothing and emits nothing"
(R99). -/
def proceed (s : State) : Host.Outcome State Fault Refusal :=
  if s.busy then
    if s.phase.toNat < s.ops.length then .next (goOn s) else .fault .phaseOutOfSequence
  else
    match s.host with
    | .routine rest => .next (goOnRoutine rest s)
    | .direct =>
      match s.program with
      | [] => .next s
      | item :: rest => runItem item (s.setProgram rest)

/-- The item of the table word `w` of `nbits` bits: up to 8 bits are a command byte, up to 16 bits an 11-bit request
word; nothing else is presented (log 16). -/
def tableItem (nbits w : Nat) : Option HostItem :=
  if nbits ≤ 8 then some (.command (BitVec.ofNat 8 w))
  else if nbits ≤ 16 ∧ w < 2048 then some (.word (BitVec.ofNat 11 w))
  else none

/-- Present an item as the very next thing the machine takes: in front of the program, the block idle, the host in no
routine, the reset line released (log 16). -/
def presentItem (item : HostItem) (s : State) : State :=
  { s with program := item :: s.program, busy := false, phase := 0, host := .direct, rst := .released }

end Sys2Proof.Machine
end

