-- ==== Sys2Proof/Machine/Step.lean ====
section
/-! DEFINITION. One step of the machine. -/

namespace Sys2Proof.Machine

/-- One step (log 1). The reset line comes first (R180 to R182). -/
def step (s : State) : Host.Outcome State Fault Refusal :=
  match s.rst with
  | .asserted draw => .next (blockReset draw s)
  | .released => proceed s

/-- `s` with the table word `w` of `nbits` bits where the next step fetches (log 16); as it was where no such word
exists. -/
def State.withFetchWord (s : State) (nbits w : Nat) : State :=
  match tableItem nbits w with
  | some item => presentItem item s
  | none => s

end Sys2Proof.Machine
end

