-- ==== Sys2Proof/Machine/PureEncoder.lean ====
section
/-! DEFINITION. The second description the spec gives of the same behaviour, written from R101, R74 and R102 and not
from the micro-operations: the trace as a function of the requests, of `BL` and of the master's verdicts. No meaning
calls it; statements compare the machine with it. -/

namespace Sys2Proof.Machine

/-! ## The block as a pure encoder (R101) -/

/-- `nib(d, m)` of R101. -/
def nibEvents (c : Config) (m d : Byte) : List Event :=
  [ .xfer c.i2cAddr (d ||| m),
    .xfer c.i2cAddr (d ||| c.pins.pEn ||| m), .wait c.delays.tEnHold,
    .xfer c.i2cAddr (d ||| m), .wait c.delays.tSettle ]

/-- `enc(r, bl)` of R101: the trace of a request when no transfer fails. -/
def encEvents (c : Config) (bl : Bool) : Request → List Event
  | .xwr => [.xfer c.i2cAddr (blMask c.pins bl)]
  | .blw b => [.xfer c.i2cAddr (blMask c.pins b)]
  | .nib n => nibEvents c (blMask c.pins bl) (place c.pins n)
  | .cmd v =>
    nibEvents c (blMask c.pins bl) (place c.pins (hiNibble v)) ++
    nibEvents c (blMask c.pins bl) (place c.pins (loNibble v))
  | .dat v =>
    nibEvents c (blMask c.pins bl) (place c.pins (hiNibble v) ||| c.pins.pRs) ++
    nibEvents c (blMask c.pins bl) (place c.pins (loNibble v) ||| c.pins.pRs)

/-- `BL'` of R101. -/
def encBl (bl : Bool) : Request → Bool
  | .blw b => b
  | .xwr | .nib _ | .cmd _ | .dat _ => bl

/-! ## The master's verdicts (R102) -/

/-- How a trace that is played to the master ends. -/
inductive Ending where
  | completed
  /-- A transfer failed with this error value. -/
  | failed (e : ErrVal)
  /-- The master has not answered a transfer (R54). -/
  | waiting
deriving DecidableEq, Repr

/-- What playing a trace to the master gives: the events that happen, the verdicts left, and the expander's latch. -/
structure Played where
  events : List Event
  answers : List Answer
  out : Byte
  ending : Ending
deriving DecidableEq, Repr

/-- Play the trace that happens when nothing fails to a master with verdicts `answers`: "the prefix ... up to and
including the first transfer the master fails (as an `XFAIL`)" (R101). -/
def play : List Event → List Answer → Byte → Played
  | [], answers, out => { events := [], answers := answers, out := out, ending := .completed }
  | .xfer a b :: evs, answers, out =>
    match answers with
    | [] => { events := [], answers := [], out := out, ending := .waiting }
    | .ok :: rest =>
      let p := play evs rest b
      { p with events := .xfer a b :: p.events }
    | .fail e latched :: rest =>
      { events := [.xfail a b e], answers := rest, out := if latched then b else out, ending := .failed e }
  | ev :: evs, answers, out =>
    let p := play evs answers out
    { p with events := ev :: p.events }

/-- The response that follows a failure (R102). -/
def Ending.response : Ending → List Event
  | .failed e => [.rsp (.xferFail e)]
  | .completed | .waiting => []

/-- A trace whose `k`-th transfer (from 0) fails: everything before it, and the failure (R102). -/
def failAt : List Event → Nat → ErrVal → List Event
  | [], _, _ => []
  | .xfer a b :: _, 0, e => [.xfail a b e]
  | .xfer a b :: evs, k + 1, e => .xfer a b :: failAt evs k e
  | ev :: evs, k, e => ev :: failAt evs k e

/-- `EXP_OUT` derived from a trace: "the byte most recently written to it with success" (R34). -/
def expOutOf : List Event → Byte → Byte
  | [], out => out
  | .xfer _ b :: evs, _ => expOutOf evs b
  | _ :: evs, out => expOutOf evs out

/-! ## Expansions (R74) -/

/-- The trace of a routine when nothing fails, responses included. -/
def routineEvents (c : Config) (bl : Bool) : List HostAction → List Event
  | [] => []
  | .request r :: rest => encEvents c bl r ++ .rsp .ok :: routineEvents c (encBl bl r) rest
  | .hwait n :: rest => .wait n :: routineEvents c bl rest
  | .setFs _ :: rest | .setDc _ :: rest | .setEm _ :: rest | .markInit :: rest => routineEvents c bl rest

/-- The transfers of a trace. -/
def transfers (evs : List Event) : Nat :=
  evs.countP fun e => match e with | .xfer _ _ => true | .xfail _ _ _ | .wait _ | .rsp _ => false

/-- The waits of a trace. -/
def waits (evs : List Event) : Nat :=
  evs.countP fun e => match e with | .wait _ => true | .xfer _ _ | .xfail _ _ _ | .rsp _ => false

/-- The sum of the minimum waits of a trace, in microseconds (R100). -/
def waitTime (evs : List Event) : Nat :=
  (evs.map fun e => match e with | .wait n => n | .xfer _ _ | .xfail _ _ _ | .rsp _ => 0).sum

/-- "a read-modify-write of one flag group followed by a single command transfer" (R120). -/
def updateThenSend (update : HostAction) (byte : Byte) : List HostAction := [update, .request (.cmd byte)]

/-- The summary table of R74, with the shadow updates of R124 to R141, and R94 to R98 and R70 as routines of one
request; `none` where the spec refuses (R123; 92_eei_decisions.md D16, D17). -/
def expansion (s : State) : Instr → Option (List HostAction)
  | .cmd v => some [.request (.cmd v)]
  | .dat v => some [.request (.dat v)]
  | .nib n => some [.request (.nib n)]
  | .blw b => some [.request (.blw b)]
  | .xwr => some [.request .xwr]
  | .clearDisplay => some [.request (.cmd s.cfg.cmd.clearDisplay)]
  | .returnHome => some [.request (.cmd s.cfg.cmd.returnHome)]
  | .entryModeSet i sh => some [.request (.cmd (entryModeByte s.cfg.cmd i sh))]
  | .displayControl d c b => some [.request (.cmd (displayControlByte s.cfg.cmd d c b))]
  | .cursorShift m r => some [.request (.cmd (cursorShiftByte s.cfg.cmd m r))]
  | .functionSet l n f => some [.request (.cmd (functionSetByte s.cfg.cmd l n f))]
  | .setCgramAddr a => some [.request (.cmd (cgramByte s.cfg.cmd a))]
  | .setDdramAddr a => some [.request (.cmd (ddramByte s.cfg.cmd a))]
  | .initializeOp => some
      [ .hwait s.cfg.delays.tPowerup, .request .xwr, .hwait s.cfg.delays.tExpReset,
        .request (.nib 3), .hwait s.cfg.delays.tHs1, .request (.nib 3), .hwait s.cfg.delays.tHs2,
        .request (.nib 3), .hwait s.cfg.delays.tHs3, .request (.nib 2),
        .setFs (functionSetOf s.cfg), .request (.cmd (fsByte s.cfg.cmd (functionSetOf s.cfg))),
        .setDc bootDc, .request (.cmd (dcByte s.cfg.cmd bootDc)),
        .request (.cmd s.cfg.cmd.clearDisplay), .hwait s.cfg.delays.tLongCmd,
        .setEm bootEm, .request (.cmd (emByte s.cfg.cmd bootEm)),
        .request (.cmd s.cfg.cmd.returnHome), .hwait s.cfg.delays.tLongCmd, .markInit ]
  | .clear => some [.request (.cmd s.cfg.cmd.clearDisplay), .hwait s.cfg.delays.tLongCmd]
  | .home => some [.request (.cmd s.cfg.cmd.returnHome), .hwait s.cfg.delays.tLongCmd]
  | .setCursor col row => (cursorAddress s.cfg col row).map fun a => [.request (.cmd (ddramByte s.cfg.cmd a))]
  | .noDisplay => some (updateThenSend (.setDc { s.dc with d := false }) (dcByte s.cfg.cmd { s.dc with d := false }))
  | .display => some (updateThenSend (.setDc { s.dc with d := true }) (dcByte s.cfg.cmd { s.dc with d := true }))
  | .noCursor => some (updateThenSend (.setDc { s.dc with c := false }) (dcByte s.cfg.cmd { s.dc with c := false }))
  | .cursor => some (updateThenSend (.setDc { s.dc with c := true }) (dcByte s.cfg.cmd { s.dc with c := true }))
  | .noBlink => some (updateThenSend (.setDc { s.dc with b := false }) (dcByte s.cfg.cmd { s.dc with b := false }))
  | .blink => some (updateThenSend (.setDc { s.dc with b := true }) (dcByte s.cfg.cmd { s.dc with b := true }))
  | .scrollDisplayLeft => some [.request (.cmd (scrollByte s.cfg.cmd false))]
  | .scrollDisplayRight => some [.request (.cmd (scrollByte s.cfg.cmd true))]
  | .leftToRight => some (updateThenSend (.setEm { s.em with i := true }) (emByte s.cfg.cmd { s.em with i := true }))
  | .rightToLeft => some (updateThenSend (.setEm { s.em with i := false }) (emByte s.cfg.cmd { s.em with i := false }))
  | .autoscroll => some (updateThenSend (.setEm { s.em with s := true }) (emByte s.cfg.cmd { s.em with s := true }))
  | .noAutoscroll => some (updateThenSend (.setEm { s.em with s := false }) (emByte s.cfg.cmd { s.em with s := false }))
  | .createChar location bitmap =>
      some (.request (.cmd (cgramByte s.cfg.cmd (glyphAddress location))) :: bitmap.map fun b => .request (.dat b))
  | .noBacklight => some [.request (.blw false)]
  | .backlight => some [.request (.blw true)]
  | .print text => (textBytes text).map fun bytes => bytes.map fun b => .request (.dat b)
  | .write byteValue => some [.request (.dat byteValue)]

end Sys2Proof.Machine
end

