-- ==== Sys2Proof/Safety.lean ====
section
/-! DEFINITION. The terms claims are made in: what an instruction leaves, the invariant of a step, the rule of the bus,
and the host's duties and moves (R183 to R197). -/

namespace Sys2Proof.Machine

/-! ## What an instruction leaves -/

/-- From `s`, an instruction has come to its end in `t`: it added the events `evs`, used up the master's answers down to
`rest`, and the block is idle with the host in no routine. The expander holds the byte last written (R34). The
parameters, what the host presents next and the reset line are as before. (The latches are don't-care when idle: R22.) -/
structure Completed (s t : State) (evs : List Event) (rest : List Answer) : Prop where
  trace : t.trace = s.trace ++ evs
  answers : t.answers = rest
  expOut : t.expOut = expOutOf evs s.expOut
  busy : t.busy = false
  phase : t.phase = 0
  host : t.host = .direct
  program : t.program = s.program
  cfg : t.cfg = s.cfg
  rst : t.rst = s.rst
  grain : t.grain = s.grain

/-- From `s`, an instruction has ended in `t` because the `k`-th of the transfers of `evs` failed with `e` (R102, R166):
the trace goes up to the failure and the response and no further, the block is idle, the host is in no routine (R120),
and the expander holds the byte before or, if it was `latched`, the failed one (R167). -/
structure Failed (s t : State) (evs : List Event) (k : Nat) (e : ErrVal) (latched : Bool) (rest : List Answer) :
    Prop where
  trace : t.trace = s.trace ++ failAt evs k e ++ [.rsp (.xferFail e)]
  answers : t.answers = rest
  expOut : ∃ before b, failAt evs k e = before ++ [.xfail s.cfg.i2cAddr b e] ∧
    t.expOut = if latched then b else expOutOf before s.expOut
  busy : t.busy = false
  phase : t.phase = 0
  host : t.host = .direct
  cfg : t.cfg = s.cfg
  rst : t.rst = s.rst
  grain : t.grain = s.grain

/-- The command layer's flag groups are as before (R26). -/
structure SameFlags (s t : State) : Prop where
  dc : t.dc = s.dc
  em : t.em = s.em
  fs : t.fs = s.fs

/-- The command layer's shadow state is as before (R26). -/
structure SameShadow (s t : State) : Prop extends SameFlags s t where
  init : t.init = s.init

/-- The flag groups are as before, and `INIT` is 0: it is "0 after reset and after any failure" (R30, R120;
92_eei_decisions.md D12, D14). -/
structure InitCleared (s t : State) : Prop extends SameFlags s t where
  init : t.init = false

/-- The next `n` transfers complete, and `rest` comes after. -/
def answersOk (n : Nat) (rest : List Answer) (s : State) : Prop := s.answers = List.replicate n .ok ++ rest

/-- The next `k` transfers complete, the one after fails with `e`, and `rest` comes after. -/
def answersFail (k : Nat) (e : ErrVal) (latched : Bool) (rest : List Answer) (s : State) : Prop :=
  s.answers = List.replicate k .ok ++ .fail e latched :: rest

/-- A write of byte `b` to the expander. -/
def busWrite (s : State) (b : Byte) : Event := .xfer s.cfg.i2cAddr b

/-- A response that is not OK. -/
def Response.isError : Response → Bool
  | .ok => false
  | .xferFail _ | .illegalReq => true

/-- The status field of the response word (R72, R161). -/
def Response.status : Response → BitVec 2
  | .ok => 0
  | .xferFail _ => 1
  | .illegalReq => 2

/-! ## The invariant -/

/-- What every step keeps, at either grain. When idle, `PHASE` is 0 (R23); when busy, `PHASE` is inside its sequence (R23,
R105) and `LATCH_M` is `0x00`, or `P_RS` under DAT (R22). The parameters are well formed (R3). Of a pseudo-operation in
progress, no action but the next can write `BL`, and none while a request is in progress: a BLW is the only request of its
operation (R137, R138). -/
structure State.Inv (s : State) : Prop where
  cfgWf : s.cfg.wf = true
  idle : s.busy = false → s.phase = 0
  inside : s.busy = true → s.phase.toNat < s.ops.length
  mode : s.busy = true → s.latchM = 0 ∨ (s.latchM = s.cfg.pins.pRs ∧ s.seq = .byte)
  routine : ∀ rest b, s.host = .routine rest → .request (.blw b) ∉ if s.busy then rest else rest.tail

/-- An event of the bus goes to `I2C_ADDR` (R40) and has `RW` = 0 (R66). -/
def Event.onBus (c : Config) : Event → Prop
  | .xfer a b | .xfail a b _ => a = c.i2cAddr ∧ b &&& c.pins.pRw = 0
  | .wait _ | .rsp _ => True

/-- A bus event carries the backlight bit `bl`: "`b & P_BL != 0` exactly when `BL = 1`" (R69). -/
def Event.carriesBl (c : Config) (bl : Bool) : Event → Prop
  | .xfer _ b | .xfail _ b _ => (b &&& c.pins.pBl ≠ 0) ↔ bl = true
  | .wait _ | .rsp _ => True

/-! ## The host's duties -/

/-- The command byte an instruction puts on the bus by itself, outside every routine. -/
def commandByte (t : CmdSet) : Instr → Option Byte
  | .cmd v => some v
  | i => encodeCommand t i

/-- The byte is a FUNCTIONSET command (R70). -/
def isFunctionSet (t : CmdSet) (b : Byte) : Bool :=
  match decodeCommand t b with
  | .ok (.functionSet _ _ _) => true
  | _ => false

/-- The byte is one of the two slow commands (R187). -/
def isSlow (t : CmdSet) (b : Byte) : Bool := b == t.clearDisplay || b == t.returnHome

/-- The host waits at least `n` in all before anything else. The wait must be among what is presented, so that none is
owed when the host presents more. -/
def waitsFirst (n : Micros) : List HostItem → Bool
  | [] => decide (n = 0)
  | .hwait m :: rest => decide (n ≤ m) || waitsFirst (n - m) rest
  | _ => decide (n = 0)

/-- The wait owed after handshake nibble `k` (from 0) of three (R188). -/
def handshakeWait (d : Delays) (k : Nat) : Micros := if k = 0 then d.tHs1 else if k = 1 then d.tHs2 else d.tHs3

/-- The wait an instruction owes before the host's next item, where it is nibble `k` of a handshake if it is one
(R187, R188). -/
def waitOwed (c : Config) (k : Nat) (i : Instr) : Micros :=
  if i = .nib 0x3 then handshakeWait c.delays k
  else
    match commandByte c.cmd i with
    | some b => if isSlow c.cmd b then c.delays.tLongCmd else 0
    | none => 0

/-- Which nibble of a handshake the next `NIB 0x3` is: they count up to three, and every other instruction (the `NIB 0x2`
that ends a handshake and a boot routine among them) starts the count again. -/
def nextNibble (k : Nat) (i : Instr) : Nat := if i = .nib 0x3 then (k + 1) % 3 else 0

/-- The host may issue it at all: no FUNCTIONSET outside the boot routine (R193). -/
def mayIssue (t : CmdSet) (i : Instr) : Bool :=
  match commandByte t i with
  | some b => !isFunctionSet t b
  | none => true

/-- The duties item by item; `k` counts the handshake nibbles written out so far. -/
def dutiesFrom (c : Config) : Nat → List HostItem → Bool
  | _, [] => true
  | k, item :: rest =>
    match readItem c.cmd item with
    | .illegal | .hwait _ => dutiesFrom c k rest
    | .instr i => mayIssue c.cmd i && waitsFirst (waitOwed c k i) rest && dutiesFrom c (nextNibble k i) rest

/-- The boot routine comes first, after any wait (R183, R190). -/
def bootsFirst : List HostItem → Bool
  | [] => true
  | .hwait _ :: rest => bootsFirst rest
  | .call .initializeOp :: _ => true
  | _ => false

/-- The host is inside the boot routine. -/
def State.booting (s : State) : Bool :=
  match s.host with
  | .direct => false
  | .routine rest => rest.contains .markInit

/-- The boot routine has run, or is running, or comes first in `p` (R183). -/
def State.mayRun (s : State) (p : List HostItem) : Bool := s.init || s.booting || bootsFirst p

/-- What the host presents keeps to R183: before anything else comes the boot routine, and again after a failure (R190) or a
reset (R182). With the reset line asserted nothing is owed: the reset drops what is presented. -/
def State.BootFirst (s : State) : Prop := s.rst = .released → s.mayRun s.program = true

/-- Presenting `items` next, after what is presented already, meets R183 (the boot routine first, and again after a failure
or a reset: R182, R190), R187, R188 and R193. While the reset line is asserted nothing is presented. The block does not
check this (R145); it is a premise of claims about the display (log 20). DESIGN CHOICE (log 28): the handshake nibbles are
counted from 0 in every presentation, so the first NIB 0x3 of `items` owes `T_HS1`, whatever was presented before. -/
def State.hostDuties (s : State) (items : List HostItem) : Bool :=
  decide (s.rst = .released) && s.mayRun (s.program ++ items) && dutiesFrom s.cfg 0 items

/-- THE HOST'S MOVE: to present `items` next. "A model gives the host no move that is marked 'must not'" (R197): there is no
move where the duties are not met (log 20). -/
def State.present (s : State) (items : List HostItem) : Option State :=
  if s.hostDuties items then some (s.setProgram (s.program ++ items)) else none

/-- The host's other move: to ask for a reset. It "may, then must `initialize`" (R197): until the reset has been made it has
no move, and the reset clears `INIT` and what is presented (R180, R182). -/
def State.askReset (s : State) (draw : ResetDraw) : State := { s with rst := .asserted draw }

/-! ## Several steps -/

/-- `n` steps, as far as there is a next state. -/
def stepsTo : Nat → State → Option State
  | 0, s => some s
  | n + 1, s =>
    match step s with
    | .next t => stepsTo n t
    | .fault _ | .refused _ => none

end Sys2Proof.Machine
end

