-- ==== Sys2Proof/Certificates/Slice0/Obligations.lean ====
section
/-! DEFINITION. The statements about the machine that the provers are to settle. What an instruction comes to is said at the
whole grain (log 1), and `MicroStepsMakeUpTheWholeInstruction` carries it to runs at the micro grain. -/

open Sys2Proof Sys2Proof.Machine

/-! ## Encodings -/

/-- R61: words written out from the opcode map and the command-byte table decode to their instructions. -/
def Obligations.TableWordsDecode : Prop :=
  decodeWord 0b00000101000 = .ok (.cmd 0x28) ∧ decodeWord 0b00101000001 = .ok (.dat 0x41) ∧
  decodeWord 0b01000000011 = .ok (.nib 0x3) ∧ decodeWord 0b01100000001 = .ok (.blw true) ∧
  decodeWord 0b10000000000 = .ok .xwr ∧
  decodeCommand CmdSet.standard 0b00000001 = .ok .clearDisplay ∧
  decodeCommand CmdSet.standard 0b00000010 = .ok .returnHome ∧
  decodeCommand CmdSet.standard 0b00000110 = .ok (.entryModeSet true false) ∧
  decodeCommand CmdSet.standard 0b00001101 = .ok (.displayControl true false true) ∧
  decodeCommand CmdSet.standard 0b00011100 = .ok (.cursorShift true true) ∧
  decodeCommand CmdSet.standard 0b00101000 = .ok (.functionSet false true false) ∧
  decodeCommand CmdSet.standard 0b01001000 = .ok (.setCgramAddr 0x08) ∧
  decodeCommand CmdSet.standard 0b11000101 = .ok (.setDdramAddr 0x45) ∧
  decodeTableWord 16 0x141 = some (.dat 0x41) ∧ decodeTableWord 8 0x1C = some (.cursorShift true true)

/-- R61: decoding a request word and encoding an instruction are inverse to each other, both ways. -/
def Obligations.RequestWordsDecodeAndEncodeAgree : Prop :=
  ∀ (w : ReqWord) (i : Instr), decodeWord w = .ok i ↔ encodeWord i = some w

/-- R70: decoding a command byte of the standard set and encoding one are inverse to each other, both ways. -/
def Obligations.CommandBytesDecodeAndEncodeAgree : Prop :=
  ∀ (b : Byte) (i : Instr), decodeCommand CmdSet.standard b = .ok i ↔ encodeCommand CmdSet.standard i = some b

/-- R76: every instruction that has a word decodes back from it, operands and all; a `PSEUDO` row has none. -/
def Obligations.EveryInstructionDecodesFromItsWord : Prop :=
  ∀ i : Instr,
    (i.isPseudo = false → ∃ bs, encode i = some bs ∧ decodeBytes bs = .ok i) ∧
    (i.isPseudo = true → encode i = none)

/-- R70: the eight patterns of the command byte under the listed codes and flag values, bit by bit. -/
def Obligations.CommandBytePatterns : Prop :=
  encodeCommand CmdSet.standard .clearDisplay = some 0b00000001 ∧
  encodeCommand CmdSet.standard .returnHome = some 0b00000010 ∧
  (∀ i s, encodeCommand CmdSet.standard (.entryModeSet i s) =
    some (0b000001#6 ++ BitVec.ofBool i ++ BitVec.ofBool s)) ∧
  (∀ d c b, encodeCommand CmdSet.standard (.displayControl d c b) =
    some (0b00001#5 ++ BitVec.ofBool d ++ BitVec.ofBool c ++ BitVec.ofBool b)) ∧
  (∀ m r, encodeCommand CmdSet.standard (.cursorShift m r) =
    some (0b0001#4 ++ BitVec.ofBool m ++ BitVec.ofBool r ++ 0b00#2)) ∧
  (∀ l n f, encodeCommand CmdSet.standard (.functionSet l n f) =
    some (0b001#3 ++ BitVec.ofBool l ++ BitVec.ofBool n ++ BitVec.ofBool f ++ 0b00#2)) ∧
  (∀ a, encodeCommand CmdSet.standard (.setCgramAddr a) = some (0b01#2 ++ a)) ∧
  (∀ a, encodeCommand CmdSet.standard (.setDdramAddr a) = some (0b1#1 ++ a))

/-- R63, R163: which request words are illegal, and that the machine answers one with ILLEGAL_REQ, issues no transfer and
no wait, and changes nothing of the block, of the command layer or of the expander. What is left of the host's program is
not said here. -/
def Obligations.IllegalWordsAreRejected : Prop :=
  (∀ w : ReqWord, (∃ e, decodeWord w = .error e) ↔
    (reqOp w = 0b101 ∨ reqOp w = 0b110 ∨ reqOp w = 0b111) ∨
    (reqOp w = 0b010 ∧ (reqArg w).extractLsb' 4 4 ≠ 0) ∨
    (reqOp w = 0b011 ∧ (reqArg w).extractLsb' 1 7 ≠ 0) ∨
    (reqOp w = 0b100 ∧ reqArg w ≠ 0)) ∧
  (∀ (s : State) (w : ReqWord) (rest : List HostItem) (e : DecodeError),
    s.Inv → s.busy = false → s.host = .direct → s.rst = .released → s.program = .word w :: rest →
    decodeWord w = .error e →
    ∃ left, step s = .next { s with trace := s.trace ++ [.rsp .illegalReq], program := left })

/-- R67, R93: with the default `P_DATA` a placed nibble is the spec's `v & 0xF0` and `(v << 4) & 0xF0`, a byte is
recovered from its halves, and a NIB operand is `n << 4`; the two nibble writes of a byte, the high one first. -/
def Obligations.NibbleAssemblyOfTheDefaultMap : Prop :=
  ∀ (c : Config) (p : PinMap), c.pins = p → p.pData = 0xF0 →
    (∀ v mode : Byte, sendByte c v mode = write4 c ((v &&& 0xF0) ||| mode) ++ write4 c (((v <<< 4) &&& 0xF0) ||| mode)) ∧
    (∀ v : Byte, place p (hiNibble v) = v &&& 0xF0 ∧ place p (loNibble v) = (v <<< 4) &&& 0xF0 ∧
      place p (hiNibble v) &&& 0x0F = 0 ∧ place p (loNibble v) &&& 0x0F = 0 ∧
      v = place p (hiNibble v) ||| place p (loNibble v) >>> 4) ∧
    (∀ n : Nibble, place p n = (n.setWidth 8 <<< 4) &&& 0xF0)

/-! ## The step -/

/-- A step runs what the front item of the program says: the instruction a request word decodes to (R61), the instruction
called by name or a host wait (R73). Two clauses are the model's choice and not the spec's: the list of items that stands
for the host (log 16), and a front command byte, which runs as its CMD8 instruction or, with no row, as plain CMD (log 14):
the block itself does not use those rows (R75, R76). -/
def Obligations.StepRunsTheFrontItem : Prop :=
  ∀ (s : State) (rest : List HostItem), s.busy = false → s.host = .direct → s.rst = .released →
    (∀ w i, s.program = .word w :: rest → decodeWord w = .ok i → step s = exec i { s with program := rest }) ∧
    (∀ b i, s.program = .command b :: rest → decodeCommand s.cfg.cmd b = .ok i →
      step s = exec i { s with program := rest }) ∧
    (∀ b e, s.program = .command b :: rest → decodeCommand s.cfg.cmd b = .error e →
      step s = exec (.cmd b) { s with program := rest }) ∧
    (∀ i, s.program = .call i :: rest → step s = exec i { s with program := rest }) ∧
    (∀ n, s.program = .hwait n :: rest →
      step s = .next { s with program := rest, trace := s.trace ++ [.wait n] })

/-- R99: with nothing presented, the idle block does nothing and emits nothing. -/
def Obligations.IdleBlockDoesNothing : Prop :=
  ∀ s : State, s.busy = false → s.host = .direct → s.rst = .released → s.program = [] → step s = .next s

/-- The host's way to place a table word: the very next step runs the instruction it decodes to. -/
def Obligations.PlacedTableWordRunsNext : Prop :=
  ∀ (s : State) (nbits w : Nat) (i : Instr), s.cfg.cmd = CmdSet.standard → w < 2 ^ nbits →
    decodeTableWord nbits w = some i →
    step (s.withFetchWord nbits w) =
      exec i { s with busy := false, phase := 0, host := .direct, rst := .released }

/-- R36, R180: the state after reset, for every configuration and whatever comes up in what R36 leaves unspecified; and
the machine's own reset state is one of these, with the standard parameters. -/
def Obligations.ResetStateOfTheBlock : Prop :=
  (∀ (c : Config) (d : ResetDraw) (out : Byte),
    (State.resetWith c d out).bl = c.blReset ∧ (State.resetWith c d out).phase = 0 ∧
    (State.resetWith c d out).busy = false ∧ (State.resetWith c d out).init = false ∧
    (State.resetWith c d out).cfg = c ∧ (State.resetWith c d out).expOut = out ∧
    (State.resetWith c d out).ready = true) ∧
  (∃ d out, State.reset = State.resetWith Config.standard d out) ∧ Config.standard.blReset = false

/-- R180, R181, R182: a reset, in progress or not. It sets `BL`, `PHASE`, `BUSY`, `INIT`; issues no event; drops the
request in progress without a response, at whichever micro-operation it stands; leaves the expander alone, but for a
transfer already handed to the master. That the answers and the grain stay, and that what the host presents is dropped, is
the model's choice (log 17). -/
def Obligations.ResetDropsTheRequestInProgress : Prop :=
  ∀ (s : State) (d : ResetDraw), s.rst = .asserted d →
    ∃ t, step s = .next t ∧ t.bl = s.cfg.blReset ∧ t.phase = 0 ∧ t.busy = false ∧ t.init = false ∧
      t.latchV = d.latchV ∧ t.latchM = d.latchM ∧ t.dc = d.dc ∧ t.em = d.em ∧ t.fs = d.fs ∧
      t.trace = s.trace ∧ t.cfg = s.cfg ∧ t.answers = s.answers ∧ t.program = [] ∧
      t.host = .direct ∧ t.rst = .released ∧ t.ready = true ∧ t.grain = s.grain ∧
      (s.busy = false → t.expOut = s.expOut) ∧
      (∀ n rest, s.busy = true → s.remaining = .wait n :: rest → t.expOut = s.expOut) ∧
      (∀ b rest, s.busy = true → s.remaining = .transfer b :: rest →
        t.expOut = if d.latched then merge s.cfg.pins s.bl b else s.expOut)

/-- R54: at a transfer the master has not answered, the block stays busy and nothing changes. -/
def Obligations.UnansweredBlockStaysBusy : Prop :=
  ∀ (s : State) (d : Byte) (rest : List MicroOp), s.rst = .released → s.busy = true →
    s.remaining = .transfer d :: rest → s.answers = [] → step s = .next s

/-- R102, R166, R167, R120: a transfer of the request in progress fails. No later micro-operation, `BL` as it is, `PHASE` 0,
the block idle, the response with `e`; the pseudo-operation stops, `INIT` is 0 (92_eei_decisions.md D12), the flag groups
stay as they are; the expander holds the old byte or the failed one. That the program stops with it is log 12. -/
def Obligations.TransferFailureIsTaken : Prop :=
  ∀ (s : State) (d b : Byte) (rest : List MicroOp) (e : ErrVal) (latched : Bool) (as : List Answer),
    s.rst = .released → s.busy = true → s.remaining = .transfer d :: rest → s.answers = .fail e latched :: as →
    b = merge s.cfg.pins s.bl d →
    ∃ t, step s = .next t ∧ t.trace = s.trace ++ [.xfail s.cfg.i2cAddr b e, .rsp (.xferFail e)] ∧ t.answers = as ∧
      t.expOut = (if latched then b else s.expOut) ∧ t.bl = s.bl ∧ t.phase = 0 ∧ t.busy = false ∧ t.host = .direct ∧
      t.program = [] ∧ InitCleared s t ∧ t.cfg = s.cfg

/-- R24, R99, R192: a step of a busy block takes nothing of what the host presents; what is presented stays, unless the
request or the pseudo-operation in progress ends in a failure (R73; log 12), whose response is then the last event. -/
def Obligations.BusyBlockAcceptsNothing : Prop :=
  ∀ s t : State, s.Inv → s.rst = .released → s.busy = true → step s = .next t →
    t.program = s.program ∨
    (t.program = [] ∧ ∃ before e, t.trace = s.trace ++ before ++ [.rsp (.xferFail e)])

/-! ## The primitive requests -/

/-- R94: XWR. `INIT` is 0 after a failure by 92_eei_decisions.md D12 and D14. -/
def Obligations.XwrWritesTheBacklightByte : Prop :=
  encodeWord .xwr = some 0b10000000000 ∧
  (∀ a : Byte, a ≠ 0 → decodeWord (0b100#3 ++ a) = .error .xwrReservedBits) ∧
  ∀ (s : State) (rest : List Answer), s.ready = true → s.grain = .whole →
    (answersOk 1 rest s → ∃ t, exec .xwr s = .next t ∧
      Completed s t [busWrite s (blMask s.cfg.pins s.bl), .rsp .ok] rest ∧ t.bl = s.bl ∧ SameShadow s t) ∧
    (∀ e l, answersFail 0 e l rest s → ∃ t, exec .xwr s = .next t ∧
      Failed s t [busWrite s (blMask s.cfg.pins s.bl)] 0 e l rest ∧ t.bl = s.bl ∧ InitCleared s t)

/-- R95: BLW. `BL` has its new value, whether or not the transfer completes. `INIT` is 0 after a failure by
92_eei_decisions.md D12 and D14. -/
def Obligations.BlwSetsTheBacklight : Prop :=
  (∀ b, encodeWord (.blw b) = some (0b0110000000#10 ++ BitVec.ofBool b)) ∧
  (∀ a : Byte, a.extractLsb' 1 7 ≠ 0 → decodeWord (0b011#3 ++ a) = .error .blwReservedBits) ∧
  ∀ (s : State) (b : Bool) (rest : List Answer), s.ready = true → s.grain = .whole →
    (answersOk 1 rest s → ∃ t, exec (.blw b) s = .next t ∧
      Completed s t [busWrite s (blMask s.cfg.pins b), .rsp .ok] rest ∧ t.bl = b ∧ SameShadow s t) ∧
    (∀ e l, answersFail 0 e l rest s → ∃ t, exec (.blw b) s = .next t ∧
      Failed s t [busWrite s (blMask s.cfg.pins b)] 0 e l rest ∧ t.bl = b ∧ InitCleared s t)

/-- R96: NIB, its five events, and a failure at each of its three transfers. `INIT` is 0 after a
failure by 92_eei_decisions.md D12 and D14. -/
def Obligations.NibWritesOneNibble : Prop :=
  (∀ n, encodeWord (.nib n) = some (0b0100000#7 ++ n)) ∧
  (∀ a : Byte, a.extractLsb' 4 4 ≠ 0 → decodeWord (0b010#3 ++ a) = .error .nibReservedBits) ∧
  ∀ (s : State) (n : Nibble) (rest : List Answer) (d m : Byte) (evs : List Event),
    s.ready = true → s.grain = .whole → s.cfg.pins.wf = true → d = place s.cfg.pins n → m = blMask s.cfg.pins s.bl →
    evs = [busWrite s (d ||| m), busWrite s (d ||| s.cfg.pins.pEn ||| m), .wait s.cfg.delays.tEnHold,
      busWrite s (d ||| m), .wait s.cfg.delays.tSettle] →
    (answersOk 3 rest s → ∃ t, exec (.nib n) s = .next t ∧ Completed s t (evs ++ [.rsp .ok]) rest ∧
      t.bl = s.bl ∧ SameShadow s t) ∧
    (∀ k e l, k < 3 → answersFail k e l rest s → ∃ t, exec (.nib n) s = .next t ∧ Failed s t evs k e l rest ∧
      t.bl = s.bl ∧ InitCleared s t)

/-- R97: CMD, its ten events with `RS` 0, and a failure at each of its six transfers. `INIT` is 0 after a
failure by 92_eei_decisions.md D12 and D14. -/
def Obligations.CmdSendsACommandByte : Prop :=
  (∀ v, encodeWord (.cmd v) = some (0b000#3 ++ v)) ∧
  ∀ (s : State) (v : Byte) (rest : List Answer) (hi lo m : Byte) (evs : List Event),
    s.ready = true → s.grain = .whole →
    s.cfg.pins.wf = true → hi = place s.cfg.pins (hiNibble v) → lo = place s.cfg.pins (loNibble v) →
    m = blMask s.cfg.pins s.bl →
    evs = [busWrite s (hi ||| m), busWrite s (hi ||| s.cfg.pins.pEn ||| m), .wait s.cfg.delays.tEnHold,
      busWrite s (hi ||| m), .wait s.cfg.delays.tSettle,
      busWrite s (lo ||| m), busWrite s (lo ||| s.cfg.pins.pEn ||| m), .wait s.cfg.delays.tEnHold,
      busWrite s (lo ||| m), .wait s.cfg.delays.tSettle] →
    (answersOk 6 rest s → ∃ t, exec (.cmd v) s = .next t ∧ Completed s t (evs ++ [.rsp .ok]) rest ∧
      t.bl = s.bl ∧ SameShadow s t) ∧
    (∀ k e l, k < 6 → answersFail k e l rest s → ∃ t, exec (.cmd v) s = .next t ∧ Failed s t evs k e l rest ∧
      t.bl = s.bl ∧ InitCleared s t)

/-- R98: DAT, as CMD with `P_RS` in every byte. `INIT` is 0 after a failure by 92_eei_decisions.md D12 and D14. -/
def Obligations.DatSendsADataByte : Prop :=
  (∀ v, encodeWord (.dat v) = some (0b001#3 ++ v)) ∧
  ∀ (s : State) (v : Byte) (rest : List Answer) (hi lo m : Byte) (evs : List Event),
    s.ready = true → s.grain = .whole → s.cfg.pins.wf = true → hi = place s.cfg.pins (hiNibble v) ||| s.cfg.pins.pRs →
    lo = place s.cfg.pins (loNibble v) ||| s.cfg.pins.pRs → m = blMask s.cfg.pins s.bl →
    evs = [busWrite s (hi ||| m), busWrite s (hi ||| s.cfg.pins.pEn ||| m), .wait s.cfg.delays.tEnHold,
      busWrite s (hi ||| m), .wait s.cfg.delays.tSettle,
      busWrite s (lo ||| m), busWrite s (lo ||| s.cfg.pins.pEn ||| m), .wait s.cfg.delays.tEnHold,
      busWrite s (lo ||| m), .wait s.cfg.delays.tSettle] →
    (answersOk 6 rest s → ∃ t, exec (.dat v) s = .next t ∧ Completed s t (evs ++ [.rsp .ok]) rest ∧
      t.bl = s.bl ∧ SameShadow s t) ∧
    (∀ k e l, k < 6 → answersFail k e l rest s → ∃ t, exec (.dat v) s = .next t ∧ Failed s t evs k e l rest ∧
      t.bl = s.bl ∧ InitCleared s t)

/-- R100: transfers, waits and minimum waiting of each request that completes. -/
def Obligations.RequestCounts : Prop :=
  ∀ (s : State) (r : Request) (rest : List Answer), s.ready = true → s.grain = .whole → s.cfg.pins.wf = true →
    ∀ n w us, (n, w, us) = (match r with
      | .xwr | .blw _ => (1, 0, 0)
      | .nib _ => (3, 2, 51)
      | .cmd _ | .dat _ => (6, 4, 102)) →
    answersOk n rest s →
    ∃ t evs, exec r.toInstr s = .next t ∧ t.trace = s.trace ++ evs ++ [.rsp .ok] ∧ t.answers = rest ∧
      transfers evs = n ∧ waits evs = w ∧ (s.cfg.delays = Delays.standard → waitTime evs = us)

/-- R101, R102: the block is the pure encoder of the spec, whatever the master answers: the events of a request are
`enc`'s played to the master, with the response OK, XFER_FAIL, or none while the master is silent; `BL` is `BL'`. While the
request is in progress the latches hold its operand and mode (R22). `INIT` is 0 after a failure by 92_eei_decisions.md D12
and D14. -/
def Obligations.RequestIsThePureEncoder : Prop :=
  ∀ (s : State) (r : Request) (p : Played), s.ready = true → s.grain = .whole → s.cfg.pins.wf = true →
    p = play (encEvents s.cfg s.bl r) s.answers s.expOut →
    ∃ t, exec r.toInstr s = .next t ∧ t.bl = encBl s.bl r ∧ t.answers = p.answers ∧ t.expOut = p.out ∧
      SameFlags s t ∧
      match p.ending with
      | .completed => t.trace = s.trace ++ p.events ++ [.rsp .ok] ∧ t.busy = false ∧ t.phase = 0 ∧
          t.program = s.program ∧ t.init = s.init
      | .failed e => t.trace = s.trace ++ p.events ++ [.rsp (.xferFail e)] ∧ t.busy = false ∧ t.phase = 0 ∧
          t.init = false
      | .waiting => t.trace = s.trace ++ p.events ∧ t.busy = true ∧ t.phase.toNat = p.events.length ∧
          t.program = s.program ∧ t.init = s.init ∧
          (∀ v, r = .cmd v → t.latchV = v ∧ t.latchM = 0) ∧
          (∀ v, r = .dat v → t.latchV = v ∧ t.latchM = s.cfg.pins.pRs) ∧
          (∀ n, r = .nib n → loNibble t.latchV = n ∧ t.latchM = 0)

/-- R101: the events of a request depend on the request, on `BL`, on the parameters and on the master, "and on nothing
else": not on the latches, the shadow registers, the expander or the trace so far. -/
def Obligations.RequestEventsDependOnBacklightAlone : Prop :=
  ∀ (s₁ s₂ t₁ t₂ : State) (r : Request), s₁.ready = true → s₂.ready = true →
    s₁.cfg = s₂.cfg → s₁.bl = s₂.bl → s₁.answers = s₂.answers → s₁.grain = s₂.grain →
    exec r.toInstr s₁ = .next t₁ → exec r.toInstr s₂ = .next t₂ →
    ∃ evs, t₁.trace = s₁.trace ++ evs ∧ t₂.trace = s₂.trace ++ evs ∧ t₁.bl = t₂.bl ∧ t₁.answers = t₂.answers ∧
      t₁.busy = t₂.busy ∧ t₁.phase = t₂.phase

/-- R65: with the default pin map, every byte a request puts on the bus has one of the five patterns, with the backlight
bit of the register: the zero-data byte for XWR and BLW, `RS` set under DAT alone, `RW` never. -/
def Obligations.EmittedBytesHaveTheFivePatterns : Prop :=
  ∀ (s t : State) (r : Request) (evs : List Event) (a : BusAddr) (b : Byte) (l : BitVec 1), s.ready = true →
    s.cfg.pins = PinMap.standard → exec r.toInstr s = .next t → t.trace = s.trace ++ evs → l = BitVec.ofBool t.bl →
    (.xfer a b ∈ evs ∨ ∃ e, .xfail a b e ∈ evs) →
    match r with
    | .xwr | .blw _ => b = 0b0000#4 ++ l ++ 0b000#3
    | .nib _ | .cmd _ => ∃ n : Nibble, b = n ++ l ++ 0b000#3 ∨ b = n ++ l ++ 0b100#3
    | .dat _ => ∃ n : Nibble, b = n ++ l ++ 0b001#3 ∨ b = n ++ l ++ 0b101#3

/-- R23: `PHASE` and the length of each sequence; a completed micro-operation adds 1 and never wraps; the last one, and a
failed transfer, return it to 0; an unanswered transfer leaves it. -/
def Obligations.PhaseCountsMicroOperations : Prop :=
  ∀ (s : State) (op : MicroOp) (rest : List MicroOp), s.busy = true → s.remaining = op :: rest →
    s.ops.length = (match s.seq with | .zero => 1 | .nibble => 5 | .byte => 10) ∧
    (((∃ n, op = .wait n) ∨ ∃ as, s.answers = .ok :: as) →
      (rest ≠ [] → (microStep s).phase.toNat = s.phase.toNat + 1 ∧ (microStep s).remaining = rest ∧
        (microStep s).busy = true) ∧
      (rest = [] → (microStep s).phase = 0 ∧ (microStep s).busy = false ∧
        ∃ evs, (microStep s).trace = evs ++ [.rsp .ok])) ∧
    (∀ d e l as, op = .transfer d → s.answers = .fail e l :: as →
      (microStep s).phase = 0 ∧ (microStep s).busy = false ∧
      (microStep s).trace = s.trace ++
        [.xfail s.cfg.i2cAddr (merge s.cfg.pins s.bl d) e, .rsp (.xferFail e)]) ∧
    (∀ d, op = .transfer d → s.answers = [] → microStep s = s)

/-- R105 (log 1): the run of a request is its micro-operation step iterated until it answers or waits for the master. -/
def Obligations.RunIsTheMicroStepIterated : Prop :=
  ∀ s : State, s.busy = true → s.phase.toNat < s.ops.length →
    runBlock s = if (microStep s).busy = true ∧ microStep s ≠ s then runBlock (microStep s) else microStep s

/-! ## The micro grain -/

/-- R22, R23, R24, R95, R99: acceptance. The operand and the mode are latched, `BUSY` is set, `PHASE` is 0 and names the first
of the request's micro-operations, a BLW has written `BL`, and nothing is emitted yet. The micro grain lets the state
right after acceptance be seen (log 1). -/
def Obligations.AcceptanceLatchesTheRequest : Prop :=
  ∀ (s : State) (r : Request), s.ready = true → s.grain = .micro →
    ∃ t, exec r.toInstr s = .next t ∧ t.busy = true ∧ t.phase = 0 ∧ t.bl = encBl s.bl r ∧
      (∀ v, r = .cmd v → t.latchV = v ∧ t.latchM = 0) ∧
      (∀ v, r = .dat v → t.latchV = v ∧ t.latchM = s.cfg.pins.pRs) ∧
      (∀ n, r = .nib n → loNibble t.latchV = n ∧ t.latchM = 0) ∧
      t.ops.length = (match r with | .xwr | .blw _ => 1 | .nib _ => 5 | .cmd _ | .dat _ => 10) ∧
      t.trace = s.trace ∧ t.answers = s.answers ∧ t.expOut = s.expOut ∧ t.program = s.program ∧ t.host = .direct ∧
      t.cfg = s.cfg ∧ t.rst = s.rst ∧ t.grain = .micro ∧ SameShadow s t

/-- R23, R120 (log 1): at the micro grain a step is one micro-operation of a busy block, or one action of the
pseudo-operation the host is in; a pseudo-operation begins with its expansion still to do (R74). -/
def Obligations.MicroGrainStepIsOneMicroOperation : Prop :=
  ∀ s : State, s.grain = .micro → s.rst = .released →
    (s.busy = true → s.phase.toNat < s.ops.length → step s = .next (microStep s)) ∧
    (s.busy = false →
      (s.host = .routine [] → step s = .next { s with host := .direct }) ∧
      (∀ r rest, s.host = .routine (.request r :: rest) →
        step s = .next ({ s with host := .routine rest }.accept r)) ∧
      (∀ n rest, s.host = .routine (.hwait n :: rest) →
        step s = .next { s with host := .routine rest, trace := s.trace ++ [.wait n] }) ∧
      (∀ v rest, s.host = .routine (.setFs v :: rest) → step s = .next { s with host := .routine rest, fs := v }) ∧
      (∀ v rest, s.host = .routine (.setDc v :: rest) → step s = .next { s with host := .routine rest, dc := v }) ∧
      (∀ v rest, s.host = .routine (.setEm v :: rest) → step s = .next { s with host := .routine rest, em := v }) ∧
      (∀ rest, s.host = .routine (.markInit :: rest) → step s = .next { s with host := .routine rest, init := true })) ∧
    (∀ i acts, s.ready = true → i.isPseudo = true → expansion s i = some acts →
      exec i s = .next { s with host := .routine acts })

/-- R23, R182: every `PHASE` of a request is reached, its waits among them, and a reset that lands there drops the request:
no later event and no response. -/
def Obligations.EveryPhaseIsReachedAndResetDropsItThere : Prop :=
  ∀ (s : State) (r : Request) (rest : List Answer) (evs : List Event) (k : Nat) (d : ResetDraw), s.ready = true →
    s.grain = .micro → s.rst = .released → s.cfg.pins.wf = true → evs = encEvents s.cfg s.bl r →
    answersOk (transfers evs) rest s → k < evs.length →
    ∃ t u v, exec r.toInstr s = .next t ∧ stepsTo k t = some u ∧ u.busy = true ∧ u.phase.toNat = k ∧
      u.trace = s.trace ++ evs.take k ∧ u.bl = encBl s.bl r ∧
      step { u with rst := .asserted d } = .next v ∧ v.busy = false ∧ v.phase = 0 ∧ v.bl = s.cfg.blReset ∧
      v.init = false ∧ v.host = .direct ∧ v.trace = s.trace ++ evs.take k

/-- R23, R99, R120 (log 1): the grain is not visible in what an instruction does. An instruction at the whole grain leads
where the micro grain leads by some number of steps, whatever the master answers. -/
def Obligations.MicroStepsMakeUpTheWholeInstruction : Prop :=
  ∀ (s t : State) (i : Instr), s.ready = true → s.grain = .whole → s.rst = .released → exec i s = .next t →
    ∃ n u, exec i { s with grain := .micro } = .next u ∧ stepsTo n u = some { t with grain := .micro }

/-! ## The command bytes -/

/-- R70: each of the eight command bytes goes out as the CMD request that carries it, and writes no flag group. Reading a
CMD8 row as that request is the model's choice (log 14); `INIT` is 0 after a failure by 92_eei_decisions.md D12 and D14. -/
def Obligations.CommandBytesGoOutAsCmd : Prop :=
  ∀ (s : State) (i : Instr) (b : Byte) (rest : List Answer),
    s.ready = true → s.grain = .whole → s.cfg.pins.wf = true →
    encodeCommand s.cfg.cmd i = some b →
    (answersOk 6 rest s → ∃ t, exec i s = .next t ∧
      Completed s t (encEvents s.cfg s.bl (.cmd b) ++ [.rsp .ok]) rest ∧ t.bl = s.bl ∧ SameShadow s t) ∧
    (∀ k e l, k < 6 → answersFail k e l rest s → ∃ t, exec i s = .next t ∧
      Failed s t (encEvents s.cfg s.bl (.cmd b)) k e l rest ∧ t.bl = s.bl ∧ InitCleared s t)

/-! ## The pseudo-operations -/

/-- R27, R28, R29: the packed forms of the flag groups under the listed command set, bit by bit, and `FS` as a function of
`ROWS` and `FONT`. -/
def Obligations.FlagGroupsPackAndFunctionSet : Prop :=
  (∀ d c b, dcByte CmdSet.standard ⟨d, c, b⟩ = 0b00001#5 ++ BitVec.ofBool d ++ BitVec.ofBool c ++ BitVec.ofBool b) ∧
  (∀ i s, emByte CmdSet.standard ⟨i, s⟩ = 0b000001#6 ++ BitVec.ofBool i ++ BitVec.ofBool s) ∧
  (∀ l n f, fsByte CmdSet.standard ⟨l, n, f⟩ =
    0b001#3 ++ BitVec.ofBool l ++ BitVec.ofBool n ++ BitVec.ofBool f ++ 0b00#2) ∧
  (∀ c : Config, (functionSetOf c).dl = false ∧ ((functionSetOf c).n = true ↔ c.rows > 1) ∧
    ((functionSetOf c).f = true ↔ c.font = .f5x10 ∧ c.rows = 1))

/-- R121, R122: `clear()` and `home()`: the command, and then a wait that a failed transfer leaves out. -/
def Obligations.ClearAndHomeCompleteWithTheWait : Prop :=
  ∀ (s : State) (rest : List Answer) (i : Instr) (b : Byte),
    s.ready = true → s.grain = .whole → s.cfg.pins.wf = true →
    (i, b) ∈ [(Instr.clear, s.cfg.cmd.clearDisplay), (Instr.home, s.cfg.cmd.returnHome)] →
    (answersOk 6 rest s → ∃ t, exec i s = .next t ∧
      Completed s t (encEvents s.cfg s.bl (.cmd b) ++ [.rsp .ok, .wait s.cfg.delays.tLongCmd]) rest ∧
      t.bl = s.bl ∧ SameShadow s t) ∧
    (∀ k e l, k < 6 → answersFail k e l rest s → ∃ t, exec i s = .next t ∧
      Failed s t (encEvents s.cfg s.bl (.cmd b)) k e l rest ∧
      t.bl = s.bl ∧ InitCleared s t)

/-- R123: `setCursor`: the strict clamp, the offset, the command; refused where the row index leaves the table or the
address exceeds 0x7F. -/
def Obligations.SetCursorSendsItsAddress : Prop :=
  ∀ (s : State) (col row r : Nat) (rest : List Answer), s.ready = true → s.grain = .whole → s.cfg.pins.wf = true →
    r = (if row > s.cfg.rows then s.cfg.rows - 1 else row) →
    (∀ (off : Byte) (a : BitVec 7) (b : Byte), s.cfg.rowOffset[r]? = some off → col + off.toNat ≤ 0x7F →
      a.toNat = col + off.toNat → b = s.cfg.cmd.setDdramAddr ||| a.setWidth 8 →
      (answersOk 6 rest s → ∃ t, exec (.setCursor col row) s = .next t ∧
        Completed s t (encEvents s.cfg s.bl (.cmd b) ++ [.rsp .ok]) rest ∧ t.bl = s.bl ∧ SameShadow s t) ∧
      (∀ k e l, k < 6 → answersFail k e l rest s → ∃ t, exec (.setCursor col row) s = .next t ∧
        Failed s t (encEvents s.cfg s.bl (.cmd b)) k e l rest ∧
        t.bl = s.bl ∧ InitCleared s t)) ∧
    ((∀ off : Byte, s.cfg.rowOffset[r]? = some off → 0x7F < col + off.toNat) →
      exec (.setCursor col row) s = .refused .setCursorOutOfDomain)

/-- R123 with the default table: the command byte of `setCursor(col, row)` for `ROWS` 1 to 4 and every row. -/
def Obligations.CursorAddressOfTheDefaultTable : Prop :=
  ∀ (c : Config) (col row : Nat), c.rowOffset = [0x00, 0x40, 0x14, 0x54] → 1 ≤ c.rows → c.rows ≤ 4 →
    (row ≤ c.rows → row < 4 →
      cursorAddress c col row =
        (let a := col + ([0x00, 0x40, 0x14, 0x54] : List Nat).getD row 0
         if a ≤ 0x7F then some (BitVec.ofNat 7 a) else none)) ∧
    (row = 4 → c.rows = 4 → cursorAddress c col row = none) ∧
    (row > c.rows → cursorAddress c col row = cursorAddress c col (c.rows - 1))

/-- R124 to R129: the six display-control operations. Each writes its field, keeps the other two, and sends the group;
the field stays written when the command fails. -/
def Obligations.DisplayControlOperations : Prop :=
  ∀ (s : State) (rest : List Answer) (i : Instr) (v : DisplayControl),
    s.ready = true → s.grain = .whole → s.cfg.pins.wf = true →
    (i, v) ∈ [(Instr.noDisplay, { s.dc with d := false }), (.display, { s.dc with d := true }),
      (.noCursor, { s.dc with c := false }), (.cursor, { s.dc with c := true }),
      (.noBlink, { s.dc with b := false }), (.blink, { s.dc with b := true })] →
    (answersOk 6 rest s → ∃ t, exec i s = .next t ∧
      Completed s t (encEvents s.cfg s.bl (.cmd (dcByte s.cfg.cmd v)) ++ [.rsp .ok]) rest ∧
      t.bl = s.bl ∧ t.dc = v ∧ t.em = s.em ∧ t.fs = s.fs ∧ t.init = s.init) ∧
    (∀ k e l, k < 6 → answersFail k e l rest s → ∃ t, exec i s = .next t ∧
      Failed s t (encEvents s.cfg s.bl (.cmd (dcByte s.cfg.cmd v))) k e l rest ∧
      t.bl = s.bl ∧ t.dc = v ∧ t.em = s.em ∧ t.fs = s.fs ∧ t.init = false)

/-- R130, R131: the two scrolling operations; no shadow state. -/
def Obligations.ScrollOperations : Prop :=
  ∀ (s : State) (rest : List Answer) (i : Instr) (b : Byte),
    s.ready = true → s.grain = .whole → s.cfg.pins.wf = true →
    (i, b) ∈ [(Instr.scrollDisplayLeft, s.cfg.cmd.cursorShift ||| s.cfg.cmd.displayMove),
      (.scrollDisplayRight, s.cfg.cmd.cursorShift ||| (s.cfg.cmd.displayMove ||| s.cfg.cmd.moveRight))] →
    (answersOk 6 rest s → ∃ t, exec i s = .next t ∧
      Completed s t (encEvents s.cfg s.bl (.cmd b) ++ [.rsp .ok]) rest ∧ t.bl = s.bl ∧ SameShadow s t) ∧
    (∀ k e l, k < 6 → answersFail k e l rest s → ∃ t, exec i s = .next t ∧
      Failed s t (encEvents s.cfg s.bl (.cmd b)) k e l rest ∧
      t.bl = s.bl ∧ InitCleared s t)

/-- R132 to R135: the four entry-mode operations. -/
def Obligations.EntryModeOperations : Prop :=
  ∀ (s : State) (rest : List Answer) (i : Instr) (v : EntryMode),
    s.ready = true → s.grain = .whole → s.cfg.pins.wf = true →
    (i, v) ∈ [(Instr.leftToRight, { s.em with i := true }), (.rightToLeft, { s.em with i := false }),
      (.autoscroll, { s.em with s := true }), (.noAutoscroll, { s.em with s := false })] →
    (answersOk 6 rest s → ∃ t, exec i s = .next t ∧
      Completed s t (encEvents s.cfg s.bl (.cmd (emByte s.cfg.cmd v)) ++ [.rsp .ok]) rest ∧
      t.bl = s.bl ∧ t.dc = s.dc ∧ t.em = v ∧ t.fs = s.fs ∧ t.init = s.init) ∧
    (∀ k e l, k < 6 → answersFail k e l rest s → ∃ t, exec i s = .next t ∧
      Failed s t (encEvents s.cfg s.bl (.cmd (emByte s.cfg.cmd v))) k e l rest ∧
      t.bl = s.bl ∧ t.dc = s.dc ∧ t.em = v ∧ t.fs = s.fs ∧ t.init = false)

/-- R136: `createChar`: the CGRAM address with the location masked to three bits, then every byte of the bitmap as it is,
whatever its length; a failed transfer leaves out all that follows; out-of-range locations wrap. -/
def Obligations.CreateCharSendsAddressAndBitmap : Prop :=
  ∀ (s : State) (location : Nat) (bitmap : List Byte) (a : BitVec 6) (rest : List Answer) (evs : List Event),
    s.ready = true → s.grain = .whole → s.cfg.pins.wf = true → a.toNat = 8 * (location % 8) →
    evs = encEvents s.cfg s.bl (.cmd (s.cfg.cmd.setCgramAddr ||| a.setWidth 8)) ++ .rsp .ok ::
      bitmap.flatMap (fun b => encEvents s.cfg s.bl (.dat b) ++ [.rsp .ok]) →
    (answersOk (6 + 6 * bitmap.length) rest s → ∃ t, exec (.createChar location bitmap) s = .next t ∧
      Completed s t evs rest ∧ t.bl = s.bl ∧ SameShadow s t) ∧
    (∀ k e l, k < 6 + 6 * bitmap.length → answersFail k e l rest s →
      ∃ t, exec (.createChar location bitmap) s = .next t ∧ Failed s t evs k e l rest ∧
        t.bl = s.bl ∧ InitCleared s t) ∧
    exec (.createChar location bitmap) s = exec (.createChar (location % 8) bitmap) s

/-- R137, R138: `noBacklight()` and `backlight()`: `BL` is written first and stays written when the transfer fails. -/
def Obligations.BacklightOperations : Prop :=
  ∀ (s : State) (rest : List Answer) (i : Instr) (b : Bool), s.ready = true → s.grain = .whole →
    (i, b) ∈ [(Instr.noBacklight, false), (Instr.backlight, true)] →
    (answersOk 1 rest s → ∃ t, exec i s = .next t ∧
      Completed s t [busWrite s (blMask s.cfg.pins b), .rsp .ok] rest ∧ t.bl = b ∧ SameShadow s t) ∧
    (∀ e l, answersFail 0 e l rest s → ∃ t, exec i s = .next t ∧
      Failed s t [busWrite s (blMask s.cfg.pins b)] 0 e l rest ∧
      t.bl = b ∧ InitCleared s t)

/-- R139, R140: `print` sends each character in order as data, an empty text sends nothing, a character that does not fit
8 bits is refused (92_eei_decisions.md D16); `write` sends its byte as data; a failed transfer leaves out all that follows.
(`PHASE` is 0 whenever the block is idle: R23 and StepKeepsTheInvariant.) -/
def Obligations.PrintAndWriteSendData : Prop :=
  ∀ (s : State) (rest : List Answer) (data : List Byte → List Event),
    s.ready = true → s.grain = .whole → s.phase = 0 →
    s.cfg.pins.wf = true → (∀ bs, data bs = bs.flatMap fun b => encEvents s.cfg s.bl (.dat b) ++ [.rsp .ok]) →
    (∀ (text : List Byte) (i : Instr),
      (i = .print (text.map BitVec.toNat) ∨ ∃ v, i = .write v ∧ text = [v]) →
      (answersOk (6 * text.length) rest s → ∃ t, exec i s = .next t ∧ Completed s t (data text) rest ∧
        t.bl = s.bl ∧ SameShadow s t) ∧
      (∀ k e l, k < 6 * text.length → answersFail k e l rest s → ∃ t, exec i s = .next t ∧
        Failed s t (data text) k e l rest ∧
        t.bl = s.bl ∧ InitCleared s t)) ∧
    (∀ text : List Nat, (∃ c ∈ text, 256 ≤ c) → exec (.print text) s = .refused .wideCharacter)

/-- R141: the boot routine, from any shadow state: its eight steps in order, 43 transfers, at least 1062150 microseconds
of host waits, and what it leaves in `FS`, `DC`, `EM` and `INIT`. A failed transfer stops it there and leaves `INIT` 0, and
what it has already written of `FS`, `DC` and `EM` stays written (R120). -/
def Obligations.BootRoutineCompletes : Prop :=
  ∀ (s : State) (rest : List Answer) (req : Request → List Event) (evs : List Event) (fs : FunctionSet),
    s.ready = true → s.grain = .whole → s.cfg.pins.wf = true →
    (∀ r, req r = encEvents s.cfg s.bl r ++ [.rsp .ok]) →
    fs = ⟨false, decide (s.cfg.rows > 1), decide (s.cfg.font = .f5x10 ∧ s.cfg.rows = 1)⟩ →
    evs = List.flatten
      [ [.wait s.cfg.delays.tPowerup],
        req .xwr, [.wait s.cfg.delays.tExpReset],
        req (.nib 3), [.wait s.cfg.delays.tHs1], req (.nib 3), [.wait s.cfg.delays.tHs2],
        req (.nib 3), [.wait s.cfg.delays.tHs3], req (.nib 2),
        req (.cmd (fsByte s.cfg.cmd fs)),
        req (.cmd (dcByte s.cfg.cmd ⟨true, false, false⟩)),
        req (.cmd s.cfg.cmd.clearDisplay), [.wait s.cfg.delays.tLongCmd],
        req (.cmd (emByte s.cfg.cmd ⟨true, false⟩)),
        req (.cmd s.cfg.cmd.returnHome), [.wait s.cfg.delays.tLongCmd] ] →
    transfers evs = 43 ∧
    (s.cfg.delays = Delays.standard → waitTime evs = 1062150 + 4 * 51 + 5 * 102) ∧
    (answersOk 43 rest s → ∃ t, exec .initializeOp s = .next t ∧ Completed s t evs rest ∧ t.bl = s.bl ∧
      t.fs = fs ∧ t.dc = ⟨true, false, false⟩ ∧ t.em = ⟨true, false⟩ ∧ t.init = true) ∧
    (∀ k e l, k < 43 → answersFail k e l rest s → ∃ t, exec .initializeOp s = .next t ∧
      Failed s t evs k e l rest ∧ t.bl = s.bl ∧ t.init = false ∧
      t.fs = (if 13 ≤ k then fs else s.fs) ∧
      t.dc = (if 19 ≤ k then ⟨true, false, false⟩ else s.dc) ∧
      t.em = (if 31 ≤ k then ⟨true, false⟩ else s.em))

/-- R120, R30: a pseudo-operation whose request fails does nothing more: the failure's response is its last event, `INIT`
is 0 and the block is idle. -/
def Obligations.PseudoOperationFailureStopsIt : Prop :=
  ∀ (s t : State) (i : Instr) (evs : List Event) (e : ErrVal), s.ready = true → s.cfg.pins.wf = true →
    i.isPseudo = true → exec i s = .next t → t.trace = s.trace ++ evs → .rsp (.xferFail e) ∈ evs →
    t.init = false ∧ t.host = .direct ∧ t.busy = false ∧ t.phase = 0 ∧
    ∃ before a b, evs = before ++ [.xfail a b e, .rsp (.xferFail e)] ∧ ∀ e', .rsp (.xferFail e') ∉ before

/-- R73 (log 12): what the host presents next is dropped exactly when a response is not OK: XFER_FAIL, whether an
instruction runs to it or a step of what is in progress does, or ILLEGAL_REQ. -/
def Obligations.FailureStopsTheHostProgram : Prop :=
  (∀ (s t : State) (i : Instr) (evs : List Event), s.ready = true → s.cfg.pins.wf = true → exec i s = .next t →
    t.trace = s.trace ++ evs →
    ((∃ e, .rsp (.xferFail e) ∈ evs) → t.program = [] ∧ t.host = .direct) ∧
    ((∀ e, .rsp (.xferFail e) ∉ evs) → t.program = s.program)) ∧
  (∀ (s t : State) (evs : List Event), s.Inv → s.rst = .released → s.ready = false → step s = .next t →
    t.trace = s.trace ++ evs →
    ((∃ e, .rsp (.xferFail e) ∈ evs) → t.program = [] ∧ t.host = .direct) ∧
    ((∀ e, .rsp (.xferFail e) ∉ evs) → t.program = s.program)) ∧
  (∀ (s : State) (w : ReqWord) (rest : List HostItem) (e : DecodeError), s.ready = true → s.rst = .released →
    s.program = .word w :: rest → decodeWord w = .error e →
    ∃ t, step s = .next t ∧ t.trace = s.trace ++ [.rsp .illegalReq] ∧ t.program = [] ∧ t.host = .direct)

/-- R49, R74, R101: the headline. For every instruction, and whatever the master answers, the trace is that of the
expansion the spec's table gives, played to the master: all of it, or the part up to the first failure and its response,
or the part up to a transfer the master has not answered. Two parts are the model's choice: the expansion of a CMD8 row
(log 14), and that a control operation before `initialize()` has one (log 8). -/
def Obligations.EveryInstructionIsItsExpansion : Prop :=
  ∀ (s : State) (i : Instr) (acts : List HostAction) (p : Played),
    s.ready = true → s.grain = .whole → s.cfg.pins.wf = true →
    expansion s i = some acts → p = play (routineEvents s.cfg s.bl acts) s.answers s.expOut →
    ∃ t, exec i s = .next t ∧ t.trace = s.trace ++ p.events ++ p.ending.response ∧
      t.answers = p.answers ∧ t.expOut = p.out ∧ (t.busy = true ↔ p.ending = .waiting) ∧
      t.cfg = s.cfg ∧ t.rst = s.rst

/-- R123, 92_eei_decisions.md D16, D17: an instruction is refused exactly where there is no expansion. That a control
operation whose `DC` or `EM` is unspecified is not refused is the model's choice (log 8: R145 against D14). -/
def Obligations.RefusedExactlyOutsideTheDomain : Prop :=
  ∀ (s : State) (i : Instr), s.ready = true →
    (∀ f, exec i s ≠ .fault f) ∧
    ((∃ r, exec i s = .refused r) ↔ expansion s i = none)

/-- R144: the double-toggle law, both ways, for each of the five fields: the second command byte is the one the starting
state of the group gives, and the group ends as it began. -/
def Obligations.DoubleToggleRestoresTheGroup : Prop :=
  ∀ (s : State) (rest : List Answer) (first second : Instr) (byte : Byte),
    s.ready = true → s.grain = .whole → s.cfg.pins.wf = true →
    answersOk 12 rest s →
    ((byte = dcByte s.cfg.cmd s.dc ∧
        ((first, second) ∈ [if s.dc.d then (Instr.noDisplay, Instr.display) else (.display, .noDisplay),
          if s.dc.c then (.noCursor, .cursor) else (.cursor, .noCursor),
          if s.dc.b then (.noBlink, .blink) else (.blink, .noBlink)])) ∨
      (byte = emByte s.cfg.cmd s.em ∧
        ((first, second) ∈ [if s.em.i then (Instr.rightToLeft, Instr.leftToRight) else (.leftToRight, .rightToLeft),
          if s.em.s then (.noAutoscroll, .autoscroll) else (.autoscroll, .noAutoscroll)]))) →
    ∃ t u, exec first s = .next t ∧ exec second t = .next u ∧ u.dc = s.dc ∧ u.em = s.em ∧
      u.trace = t.trace ++ encEvents s.cfg s.bl (.cmd byte) ++ [.rsp .ok]

/-! ## The whole machine -/

/-- The invariant holds after reset (R36). -/
def Obligations.InvariantHoldsAtReset : Prop := State.reset.Inv

/-- Every step keeps the invariant, at either grain: `PHASE` 0 when idle and inside its sequence when busy (R23, R105), legal
mode bits (R22), parameters within R3, and no BLW left in a pseudo-operation in progress. -/
def Obligations.StepKeepsTheInvariant : Prop :=
  ∀ s t : State, s.Inv → step s = .next t → t.Inv

/-- Under the invariant no step faults. -/
def Obligations.InvariantRulesOutFaults : Prop :=
  ∀ (s : State) (f : Fault), s.Inv → step s ≠ .fault f

/-- R40, R66: every transfer ever made goes to `I2C_ADDR` and has `RW` = 0; every step keeps this. -/
def Obligations.StepKeepsTheBusRule : Prop :=
  ∀ s t : State, s.Inv → (∀ e ∈ s.trace, e.onBus s.cfg) → step s = .next t → ∀ e ∈ t.trace, e.onBus t.cfg

/-- R69, R103: every transfer a step makes carries the backlight bit of the register as the step leaves it. -/
def Obligations.EveryTransferCarriesTheBacklight : Prop :=
  ∀ s t : State, s.Inv → step s = .next t →
    ∃ evs, t.trace = s.trace ++ evs ∧ ∀ e ∈ evs, e.carriesBl s.cfg t.bl

/-- R3: no step changes a parameter; and nothing in the trace is ever dropped or reordered (R49). -/
def Obligations.ParametersAndPastEventsStay : Prop :=
  ∀ s t : State, step s = .next t → t.cfg = s.cfg ∧ s.trace <+: t.trace

/-- R21, R103: only BLW, and so `backlight()` and `noBacklight()`, writes `BL`. -/
def Obligations.OnlyBlwWritesTheBacklight : Prop :=
  ∀ (s t : State) (i : Instr), exec i s = .next t → t.bl ≠ s.bl →
    (i = .blw true ∧ t.bl = true) ∨ (i = .blw false ∧ t.bl = false) ∨
    (i = .backlight ∧ t.bl = true) ∨ (i = .noBacklight ∧ t.bl = false)

/-- R27 to R30: which instructions can write which shadow register: `DC` the boot routine and the six of R124 to R129,
`EM` the boot routine and the four of R132 to R135, `FS` the boot routine alone; `INIT` becomes 1 by the boot routine
alone. A primitive request writes none of the flag groups, and `INIT` only to 0, by a failure (92_eei_decisions.md D12,
D14). A command byte is no more than its CMD request, which is the model's choice (log 14). -/
def Obligations.ShadowStateFrame : Prop :=
  ∀ (s t : State) (i : Instr), exec i s = .next t →
    (t.dc = s.dc ∨ i ∈ [Instr.initializeOp, .noDisplay, .display, .noCursor, .cursor, .noBlink, .blink]) ∧
    (t.em = s.em ∨ i ∈ [Instr.initializeOp, .leftToRight, .rightToLeft, .autoscroll, .noAutoscroll]) ∧
    (t.fs = s.fs ∨ i = .initializeOp) ∧
    (t.init = true → s.init = true ∨ i = .initializeOp) ∧
    (i.isPseudo = false → SameFlags s t ∧
      (t.init = s.init ∨ (t.init = false ∧ ∃ evs e, t.trace = s.trace ++ evs ∧ .rsp (.xferFail e) ∈ evs)))

/-- R34, R194: from a low enable line, an instruction that ends without a failure leaves it low. -/
def Obligations.EnableLowWhenIdleWithoutFailure : Prop :=
  ∀ (s t : State) (i : Instr) (evs : List Event), s.ready = true → s.cfg.pins.wf = true →
    s.expOut &&& s.cfg.pins.pEn = 0 → exec i s = .next t → t.busy = false → t.trace = s.trace ++ evs →
    (∀ e, .rsp (.xferFail e) ∉ evs) → t.expOut &&& s.cfg.pins.pEn = 0

/-- R49, R54 (logs 1, 2): waiting for the master changes nothing. An instruction that has waited, once the missing answers
are there, goes on by the next step to exactly the outcome it has when they are there from the start. -/
def Obligations.WaitingForTheMasterChangesNothing : Prop :=
  ∀ (s t : State) (i : Instr) (early late : List Answer),
    s.ready = true → s.grain = .whole → s.rst = .released → s.answers = early →
    exec i s = .next t → t.busy = true →
    step { t with answers := late } = exec i { s with answers := early ++ late }

/-! ## Responses and the host -/

/-- R72, R161: the status numbers of the response word. -/
def Obligations.ResponseStatusNumbers : Prop :=
  Response.ok.status = 0 ∧ (∀ e, (Response.xferFail e).status = 1) ∧ Response.illegalReq.status = 2 ∧
  ∀ r : Response, r.status ≠ 3

/-- R182, R183, R190, R197: the host runs `initialize()` first, and again after a failure or a reset. This holds at reset;
every step and both moves of the host keep it (the moves are the model's wording of R197: log 20); and where it holds, a
ready machine with `INIT` 0 is presented the boot routine or a wait, or nothing. -/
def Obligations.HostBootsFirstAlongEveryRun : Prop :=
  State.reset.BootFirst ∧
  (∀ s t : State, s.BootFirst → step s = .next t → t.BootFirst) ∧
  (∀ (s t : State) (items : List HostItem), s.present items = some t → t.BootFirst) ∧
  (∀ (s : State) (d : ResetDraw) (items : List HostItem),
    (s.askReset d).BootFirst ∧ (s.askReset d).present items = none) ∧
  (∀ (s : State) (item : HostItem) (rest : List HostItem), s.BootFirst → s.ready = true → s.rst = .released →
    s.init = false → s.program = item :: rest → item = .call .initializeOp ∨ ∃ n, item = .hwait n)

/-- R193: "and no pseudo-operation does". Under the listed command set, of all the expansions (R74) only those of
`initialize()`, of a FUNCTIONSET command byte and of a CMD of that same byte hold a CMD whose byte is a FUNCTIONSET command.
(EveryInstructionIsItsExpansion and MicroGrainStepIsOneMicroOperation tie the expansions to `exec`.) -/
def Obligations.NoOtherExpansionHoldsAFunctionSet : Prop :=
  ∀ (s : State) (i : Instr) (acts : List HostAction) (b : Byte), s.cfg.cmd = CmdSet.standard →
    expansion s i = some acts → .request (.cmd b) ∈ acts → isFunctionSet CmdSet.standard b = true →
    i = .initializeOp ∨ (∃ l n f, i = .functionSet l n f) ∨ i = .cmd b
end

