-- ==== Sys2Proof/Laws/State.lean ====
section
/-! SUPPORT. One lemma per field per named update of State, each true by rfl, so that no proof unfolds a record update. -/

namespace Sys2Proof.Machine

variable (s : State)

/-! ### emit -/

@[simp] theorem State.emit_cfg (e : Event) : (s.emit e).cfg = s.cfg := rfl
@[simp] theorem State.emit_bl (e : Event) : (s.emit e).bl = s.bl := rfl
@[simp] theorem State.emit_latchV (e : Event) : (s.emit e).latchV = s.latchV := rfl
@[simp] theorem State.emit_latchM (e : Event) : (s.emit e).latchM = s.latchM := rfl
@[simp] theorem State.emit_seq (e : Event) : (s.emit e).seq = s.seq := rfl
@[simp] theorem State.emit_phase (e : Event) : (s.emit e).phase = s.phase := rfl
@[simp] theorem State.emit_busy (e : Event) : (s.emit e).busy = s.busy := rfl
@[simp] theorem State.emit_dc (e : Event) : (s.emit e).dc = s.dc := rfl
@[simp] theorem State.emit_em (e : Event) : (s.emit e).em = s.em := rfl
@[simp] theorem State.emit_fs (e : Event) : (s.emit e).fs = s.fs := rfl
@[simp] theorem State.emit_init (e : Event) : (s.emit e).init = s.init := rfl
@[simp] theorem State.emit_expOut (e : Event) : (s.emit e).expOut = s.expOut := rfl
@[simp] theorem State.emit_trace (e : Event) : (s.emit e).trace = s.trace ++ [e] := rfl
@[simp] theorem State.emit_answers (e : Event) : (s.emit e).answers = s.answers := rfl
@[simp] theorem State.emit_program (e : Event) : (s.emit e).program = s.program := rfl
@[simp] theorem State.emit_host (e : Event) : (s.emit e).host = s.host := rfl
@[simp] theorem State.emit_rst (e : Event) : (s.emit e).rst = s.rst := rfl
@[simp] theorem State.emit_grain (e : Event) : (s.emit e).grain = s.grain := rfl

/-! ### nextPhase -/

@[simp] theorem State.nextPhase_cfg : (s.nextPhase).cfg = s.cfg := rfl
@[simp] theorem State.nextPhase_bl : (s.nextPhase).bl = s.bl := rfl
@[simp] theorem State.nextPhase_latchV : (s.nextPhase).latchV = s.latchV := rfl
@[simp] theorem State.nextPhase_latchM : (s.nextPhase).latchM = s.latchM := rfl
@[simp] theorem State.nextPhase_seq : (s.nextPhase).seq = s.seq := rfl
@[simp] theorem State.nextPhase_phase : (s.nextPhase).phase = s.phase + 1 := rfl
@[simp] theorem State.nextPhase_busy : (s.nextPhase).busy = s.busy := rfl
@[simp] theorem State.nextPhase_dc : (s.nextPhase).dc = s.dc := rfl
@[simp] theorem State.nextPhase_em : (s.nextPhase).em = s.em := rfl
@[simp] theorem State.nextPhase_fs : (s.nextPhase).fs = s.fs := rfl
@[simp] theorem State.nextPhase_init : (s.nextPhase).init = s.init := rfl
@[simp] theorem State.nextPhase_expOut : (s.nextPhase).expOut = s.expOut := rfl
@[simp] theorem State.nextPhase_trace : (s.nextPhase).trace = s.trace := rfl
@[simp] theorem State.nextPhase_answers : (s.nextPhase).answers = s.answers := rfl
@[simp] theorem State.nextPhase_program : (s.nextPhase).program = s.program := rfl
@[simp] theorem State.nextPhase_host : (s.nextPhase).host = s.host := rfl
@[simp] theorem State.nextPhase_rst : (s.nextPhase).rst = s.rst := rfl
@[simp] theorem State.nextPhase_grain : (s.nextPhase).grain = s.grain := rfl

/-! ### setHost -/

@[simp] theorem State.setHost_cfg (h : HostRoutine) : (s.setHost h).cfg = s.cfg := rfl
@[simp] theorem State.setHost_bl (h : HostRoutine) : (s.setHost h).bl = s.bl := rfl
@[simp] theorem State.setHost_latchV (h : HostRoutine) : (s.setHost h).latchV = s.latchV := rfl
@[simp] theorem State.setHost_latchM (h : HostRoutine) : (s.setHost h).latchM = s.latchM := rfl
@[simp] theorem State.setHost_seq (h : HostRoutine) : (s.setHost h).seq = s.seq := rfl
@[simp] theorem State.setHost_phase (h : HostRoutine) : (s.setHost h).phase = s.phase := rfl
@[simp] theorem State.setHost_busy (h : HostRoutine) : (s.setHost h).busy = s.busy := rfl
@[simp] theorem State.setHost_dc (h : HostRoutine) : (s.setHost h).dc = s.dc := rfl
@[simp] theorem State.setHost_em (h : HostRoutine) : (s.setHost h).em = s.em := rfl
@[simp] theorem State.setHost_fs (h : HostRoutine) : (s.setHost h).fs = s.fs := rfl
@[simp] theorem State.setHost_init (h : HostRoutine) : (s.setHost h).init = s.init := rfl
@[simp] theorem State.setHost_expOut (h : HostRoutine) : (s.setHost h).expOut = s.expOut := rfl
@[simp] theorem State.setHost_trace (h : HostRoutine) : (s.setHost h).trace = s.trace := rfl
@[simp] theorem State.setHost_answers (h : HostRoutine) : (s.setHost h).answers = s.answers := rfl
@[simp] theorem State.setHost_program (h : HostRoutine) : (s.setHost h).program = s.program := rfl
@[simp] theorem State.setHost_host (h : HostRoutine) : (s.setHost h).host = h := rfl
@[simp] theorem State.setHost_rst (h : HostRoutine) : (s.setHost h).rst = s.rst := rfl
@[simp] theorem State.setHost_grain (h : HostRoutine) : (s.setHost h).grain = s.grain := rfl

/-! ### setProgram -/

@[simp] theorem State.setProgram_cfg (p : List HostItem) : (s.setProgram p).cfg = s.cfg := rfl
@[simp] theorem State.setProgram_bl (p : List HostItem) : (s.setProgram p).bl = s.bl := rfl
@[simp] theorem State.setProgram_latchV (p : List HostItem) : (s.setProgram p).latchV = s.latchV := rfl
@[simp] theorem State.setProgram_latchM (p : List HostItem) : (s.setProgram p).latchM = s.latchM := rfl
@[simp] theorem State.setProgram_seq (p : List HostItem) : (s.setProgram p).seq = s.seq := rfl
@[simp] theorem State.setProgram_phase (p : List HostItem) : (s.setProgram p).phase = s.phase := rfl
@[simp] theorem State.setProgram_busy (p : List HostItem) : (s.setProgram p).busy = s.busy := rfl
@[simp] theorem State.setProgram_dc (p : List HostItem) : (s.setProgram p).dc = s.dc := rfl
@[simp] theorem State.setProgram_em (p : List HostItem) : (s.setProgram p).em = s.em := rfl
@[simp] theorem State.setProgram_fs (p : List HostItem) : (s.setProgram p).fs = s.fs := rfl
@[simp] theorem State.setProgram_init (p : List HostItem) : (s.setProgram p).init = s.init := rfl
@[simp] theorem State.setProgram_expOut (p : List HostItem) : (s.setProgram p).expOut = s.expOut := rfl
@[simp] theorem State.setProgram_trace (p : List HostItem) : (s.setProgram p).trace = s.trace := rfl
@[simp] theorem State.setProgram_answers (p : List HostItem) : (s.setProgram p).answers = s.answers := rfl
@[simp] theorem State.setProgram_program (p : List HostItem) : (s.setProgram p).program = p := rfl
@[simp] theorem State.setProgram_host (p : List HostItem) : (s.setProgram p).host = s.host := rfl
@[simp] theorem State.setProgram_rst (p : List HostItem) : (s.setProgram p).rst = s.rst := rfl
@[simp] theorem State.setProgram_grain (p : List HostItem) : (s.setProgram p).grain = s.grain := rfl

/-! ### answered -/

@[simp] theorem State.answered_cfg (rest : List Answer) (out : Byte) : (s.answered rest out).cfg = s.cfg := rfl
@[simp] theorem State.answered_bl (rest : List Answer) (out : Byte) : (s.answered rest out).bl = s.bl := rfl
@[simp] theorem State.answered_latchV (rest : List Answer) (out : Byte) : (s.answered rest out).latchV = s.latchV := rfl
@[simp] theorem State.answered_latchM (rest : List Answer) (out : Byte) : (s.answered rest out).latchM = s.latchM := rfl
@[simp] theorem State.answered_seq (rest : List Answer) (out : Byte) : (s.answered rest out).seq = s.seq := rfl
@[simp] theorem State.answered_phase (rest : List Answer) (out : Byte) : (s.answered rest out).phase = s.phase := rfl
@[simp] theorem State.answered_busy (rest : List Answer) (out : Byte) : (s.answered rest out).busy = s.busy := rfl
@[simp] theorem State.answered_dc (rest : List Answer) (out : Byte) : (s.answered rest out).dc = s.dc := rfl
@[simp] theorem State.answered_em (rest : List Answer) (out : Byte) : (s.answered rest out).em = s.em := rfl
@[simp] theorem State.answered_fs (rest : List Answer) (out : Byte) : (s.answered rest out).fs = s.fs := rfl
@[simp] theorem State.answered_init (rest : List Answer) (out : Byte) : (s.answered rest out).init = s.init := rfl
@[simp] theorem State.answered_expOut (rest : List Answer) (out : Byte) : (s.answered rest out).expOut = out := rfl
@[simp] theorem State.answered_trace (rest : List Answer) (out : Byte) : (s.answered rest out).trace = s.trace := rfl
@[simp] theorem State.answered_answers (rest : List Answer) (out : Byte) : (s.answered rest out).answers = rest := rfl
@[simp] theorem State.answered_program (rest : List Answer) (out : Byte) : (s.answered rest out).program = s.program := rfl
@[simp] theorem State.answered_host (rest : List Answer) (out : Byte) : (s.answered rest out).host = s.host := rfl
@[simp] theorem State.answered_rst (rest : List Answer) (out : Byte) : (s.answered rest out).rst = s.rst := rfl
@[simp] theorem State.answered_grain (rest : List Answer) (out : Byte) : (s.answered rest out).grain = s.grain := rfl

/-! ### respond -/

@[simp] theorem State.respond_cfg (r : Response) : (s.respond r).cfg = s.cfg := rfl
@[simp] theorem State.respond_bl (r : Response) : (s.respond r).bl = s.bl := rfl
@[simp] theorem State.respond_latchV (r : Response) : (s.respond r).latchV = s.latchV := rfl
@[simp] theorem State.respond_latchM (r : Response) : (s.respond r).latchM = s.latchM := rfl
@[simp] theorem State.respond_seq (r : Response) : (s.respond r).seq = s.seq := rfl
@[simp] theorem State.respond_phase (r : Response) : (s.respond r).phase = 0 := rfl
@[simp] theorem State.respond_busy (r : Response) : (s.respond r).busy = false := rfl
@[simp] theorem State.respond_dc (r : Response) : (s.respond r).dc = s.dc := rfl
@[simp] theorem State.respond_em (r : Response) : (s.respond r).em = s.em := rfl
@[simp] theorem State.respond_fs (r : Response) : (s.respond r).fs = s.fs := rfl
@[simp] theorem State.respond_init (r : Response) : (s.respond r).init = s.init := rfl
@[simp] theorem State.respond_expOut (r : Response) : (s.respond r).expOut = s.expOut := rfl
@[simp] theorem State.respond_trace (r : Response) : (s.respond r).trace = s.trace ++ [.rsp r] := rfl
@[simp] theorem State.respond_answers (r : Response) : (s.respond r).answers = s.answers := rfl
@[simp] theorem State.respond_program (r : Response) : (s.respond r).program = s.program := rfl
@[simp] theorem State.respond_host (r : Response) : (s.respond r).host = s.host := rfl
@[simp] theorem State.respond_rst (r : Response) : (s.respond r).rst = s.rst := rfl
@[simp] theorem State.respond_grain (r : Response) : (s.respond r).grain = s.grain := rfl

/-! ### stopHost -/

@[simp] theorem State.stopHost_cfg (r : Response) : (s.stopHost r).cfg = s.cfg := rfl
@[simp] theorem State.stopHost_bl (r : Response) : (s.stopHost r).bl = s.bl := rfl
@[simp] theorem State.stopHost_latchV (r : Response) : (s.stopHost r).latchV = s.latchV := rfl
@[simp] theorem State.stopHost_latchM (r : Response) : (s.stopHost r).latchM = s.latchM := rfl
@[simp] theorem State.stopHost_seq (r : Response) : (s.stopHost r).seq = s.seq := rfl
@[simp] theorem State.stopHost_phase (r : Response) : (s.stopHost r).phase = s.phase := rfl
@[simp] theorem State.stopHost_busy (r : Response) : (s.stopHost r).busy = s.busy := rfl
@[simp] theorem State.stopHost_dc (r : Response) : (s.stopHost r).dc = s.dc := rfl
@[simp] theorem State.stopHost_em (r : Response) : (s.stopHost r).em = s.em := rfl
@[simp] theorem State.stopHost_fs (r : Response) : (s.stopHost r).fs = s.fs := rfl
@[simp] theorem State.stopHost_init (r : Response) : (s.stopHost r).init = initAfter r s.init := rfl
@[simp] theorem State.stopHost_expOut (r : Response) : (s.stopHost r).expOut = s.expOut := rfl
@[simp] theorem State.stopHost_trace (r : Response) : (s.stopHost r).trace = s.trace := rfl
@[simp] theorem State.stopHost_answers (r : Response) : (s.stopHost r).answers = s.answers := rfl
@[simp] theorem State.stopHost_program (r : Response) : (s.stopHost r).program = [] := rfl
@[simp] theorem State.stopHost_host (r : Response) : (s.stopHost r).host = .direct := rfl
@[simp] theorem State.stopHost_rst (r : Response) : (s.stopHost r).rst = s.rst := rfl
@[simp] theorem State.stopHost_grain (r : Response) : (s.stopHost r).grain = s.grain := rfl

/-! ### accept -/

@[simp] theorem State.accept_cfg (r : Request) : (s.accept r).cfg = s.cfg := rfl
@[simp] theorem State.accept_bl (r : Request) : (s.accept r).bl = r.backlight s.bl := rfl
@[simp] theorem State.accept_latchV (r : Request) : (s.accept r).latchV = r.operand := rfl
@[simp] theorem State.accept_latchM (r : Request) : (s.accept r).latchM = r.mode s.cfg.pins := rfl
@[simp] theorem State.accept_seq (r : Request) : (s.accept r).seq = r.seqKind := rfl
@[simp] theorem State.accept_phase (r : Request) : (s.accept r).phase = 0 := rfl
@[simp] theorem State.accept_busy (r : Request) : (s.accept r).busy = true := rfl
@[simp] theorem State.accept_dc (r : Request) : (s.accept r).dc = s.dc := rfl
@[simp] theorem State.accept_em (r : Request) : (s.accept r).em = s.em := rfl
@[simp] theorem State.accept_fs (r : Request) : (s.accept r).fs = s.fs := rfl
@[simp] theorem State.accept_init (r : Request) : (s.accept r).init = s.init := rfl
@[simp] theorem State.accept_expOut (r : Request) : (s.accept r).expOut = s.expOut := rfl
@[simp] theorem State.accept_trace (r : Request) : (s.accept r).trace = s.trace := rfl
@[simp] theorem State.accept_answers (r : Request) : (s.accept r).answers = s.answers := rfl
@[simp] theorem State.accept_program (r : Request) : (s.accept r).program = s.program := rfl
@[simp] theorem State.accept_host (r : Request) : (s.accept r).host = s.host := rfl
@[simp] theorem State.accept_rst (r : Request) : (s.accept r).rst = s.rst := rfl
@[simp] theorem State.accept_grain (r : Request) : (s.accept r).grain = s.grain := rfl

end Sys2Proof.Machine
end

