-- ==== Sys2Proof/Laws/Ops.lean ====
section
/-! SUPPORT. What each shared operation can do, said once: the master's answers, the run of a request, the run of a
routine, and the two errors. -/

namespace Sys2Proof.Machine

/-! ## Readiness -/

theorem State.ready_iff (s : State) : s.ready = true ↔ s.busy = false ∧ s.host = .direct := by
  simp [State.ready]

theorem whenReady_of_ready {i : Instr} {s : State} {go} (h : s.ready = true) : whenReady i s go = go s := by
  simp [whenReady, h]

theorem whenReady_of_not_ready {i : Instr} {s : State} {go} (h : s.ready = false) :
    whenReady i s go = .next (s.setProgram (.call i :: s.program)) := by
  simp [whenReady, h]

/-! ## The event of a micro-operation -/

/-- The event of a micro-operation that completes. -/
def MicroOp.event (c : Config) (bl : Bool) : MicroOp → Event
  | .transfer d => .xfer c.i2cAddr (merge c.pins bl d)
  | .wait n => .wait n

/-- The events of a sequence that completes. -/
def opEvents (c : Config) (bl : Bool) (ops : List MicroOp) : List Event := ops.map (MicroOp.event c bl)

@[simp] theorem opEvents_nil (c : Config) (bl : Bool) : opEvents c bl [] = [] := rfl

@[simp] theorem opEvents_append (c : Config) (bl : Bool) (a b : List MicroOp) :
    opEvents c bl (a ++ b) = opEvents c bl a ++ opEvents c bl b := by
  simp [opEvents]

/-! ## Playing a trace -/

@[simp] theorem play_nil (ans : List Answer) (out : Byte) : play [] ans out = ⟨[], ans, out, .completed⟩ := by
  simp [play]

@[simp] theorem play_wait (n : Micros) (evs : List Event) (ans : List Answer) (out : Byte) :
    play (.wait n :: evs) ans out =
      { play evs ans out with events := .wait n :: (play evs ans out).events } := by
  simp [play]

@[simp] theorem play_rsp (r : Response) (evs : List Event) (ans : List Answer) (out : Byte) :
    play (.rsp r :: evs) ans out =
      { play evs ans out with events := .rsp r :: (play evs ans out).events } := by
  simp [play]

@[simp] theorem play_xfer_waiting (a : BusAddr) (b : Byte) (evs : List Event) (out : Byte) :
    play (.xfer a b :: evs) [] out = ⟨[], [], out, .waiting⟩ := by
  simp [play]

@[simp] theorem play_xfer_ok (a : BusAddr) (b : Byte) (evs : List Event) (ans : List Answer) (out : Byte) :
    play (.xfer a b :: evs) (.ok :: ans) out =
      { play evs ans b with events := .xfer a b :: (play evs ans b).events } := by
  simp [play]

@[simp] theorem play_xfer_fail (a : BusAddr) (b : Byte) (e : ErrVal) (l : Bool) (evs : List Event)
    (ans : List Answer) (out : Byte) :
    play (.xfer a b :: evs) (.fail e l :: ans) out =
      ⟨[.xfail a b e], ans, if l then b else out, .failed e⟩ := by
  simp [play]

/-- What is played before a completed part stays, and the rest is played with what is left. -/
theorem play_append_completed {xs : List Event} (ys : List Event) {ans : List Answer} {out : Byte}
    (h : (play xs ans out).ending = .completed) :
    play (xs ++ ys) ans out =
      { play ys (play xs ans out).answers (play xs ans out).out with
        events := (play xs ans out).events ++ (play ys (play xs ans out).answers (play xs ans out).out).events } := by
  induction xs generalizing ans out with
  | nil => simp
  | cons ev evs ih =>
    cases ev with
    | xfer a b =>
      cases ans with
      | nil => simp at h
      | cons x rest =>
        cases x with
        | ok =>
          simp only [play_xfer_ok] at h
          simp [ih h]
        | fail e l => simp at h
    | xfail a b e =>
      simp only [play] at h
      simp [play, ih h]
    | wait n =>
      simp only [play_wait] at h
      simp [ih h]
    | rsp r =>
      simp only [play_rsp] at h
      simp [ih h]

/-- A part that does not complete is all that is played. -/
theorem play_append_stopped {xs : List Event} (ys : List Event) {ans : List Answer} {out : Byte}
    (h : (play xs ans out).ending ≠ .completed) : play (xs ++ ys) ans out = play xs ans out := by
  induction xs generalizing ans out with
  | nil => simp at h
  | cons ev evs ih =>
    cases ev with
    | xfer a b =>
      cases ans with
      | nil => simp
      | cons x rest =>
        cases x with
        | ok =>
          simp only [play_xfer_ok] at h
          simp [ih h]
        | fail e l => simp
    | xfail a b e =>
      simp only [play] at h
      simp [play, ih h]
    | wait n =>
      simp only [play_wait] at h
      simp [ih h]
    | rsp r =>
      simp only [play_rsp] at h
      simp [ih h]

/-- A play that waits has used up every answer. -/
theorem play_waiting_answers {evs : List Event} {ans : List Answer} {out : Byte}
    (h : (play evs ans out).ending = .waiting) : (play evs ans out).answers = [] := by
  induction evs generalizing ans out with
  | nil => simp at h
  | cons ev evs ih =>
    cases ev with
    | xfer a b =>
      cases ans with
      | nil => simp
      | cons x rest =>
        cases x with
        | ok =>
          simp only [play_xfer_ok] at h ⊢
          exact ih h
        | fail e l => simp at h
    | xfail a b e =>
      simp only [play] at h ⊢
      exact ih h
    | wait n =>
      simp only [play_wait] at h ⊢
      exact ih h
    | rsp r =>
      simp only [play_rsp] at h ⊢
      exact ih h

/-- No more is played than there is. -/
theorem play_length_le (evs : List Event) (ans : List Answer) (out : Byte) :
    (play evs ans out).events.length ≤ evs.length := by
  induction evs generalizing ans out with
  | nil => simp
  | cons ev evs ih =>
    cases ev with
    | xfer a b =>
      cases ans with
      | nil => simp
      | cons x rest => cases x <;> simp [ih]
    | xfail a b e => simp [play, ih]
    | wait n => simp [ih]
    | rsp r => simp [ih]

/-! ## The run of a sequence -/

/-- The state after the events of `p`, before what its ending asks for. -/
def State.played (s : State) (p : Played) (phase : BitVec 4) : State :=
  { s with trace := s.trace ++ p.events, answers := p.answers, expOut := p.out, phase := phase }

/-- What `p`'s ending asks for (R99, R102, R54). -/
def State.settle (s : State) : Ending → State
  | .completed => s.respond .ok
  | .failed e => takeXferFail e s
  | .waiting => s

theorem State.settle_phase_completed (s : State) (p : Played) (x y : BitVec 4) :
    (s.played p x).settle .completed = (s.played p y).settle .completed := rfl

theorem State.settle_phase_failed (s : State) (p : Played) (x y : BitVec 4) (e : ErrVal) :
    (s.played p x).settle (.failed e) = (s.played p y).settle (.failed e) := rfl

/-- EVERYTHING `runOps` CAN DO: it plays the events of its sequence to the master and settles; while it waits, `PHASE`
has advanced by one for each event (R23). -/
theorem runOps_eq (ops : List MicroOp) (s : State) :
    runOps ops s =
      (s.played (play (opEvents s.cfg s.bl ops) s.answers s.expOut)
        (s.phase + BitVec.ofNat 4 (play (opEvents s.cfg s.bl ops) s.answers s.expOut).events.length)).settle
        (play (opEvents s.cfg s.bl ops) s.answers s.expOut).ending := by
  induction ops generalizing s with
  | nil => simp [runOps, State.played, State.settle]
  | cons op ops ih =>
    cases op with
    | wait n =>
      simp only [runOps, runOp, ih, waitUs, opEvents, List.map_cons, MicroOp.event, State.nextPhase_cfg,
        State.emit_cfg, State.nextPhase_bl, State.emit_bl, State.nextPhase_answers, State.emit_answers,
        State.nextPhase_expOut, State.emit_expOut, play_wait]
      congr 1
      simp [State.played, State.nextPhase, State.emit, BitVec.ofNat_add, BitVec.add_assoc, BitVec.add_comm]
    | transfer d =>
      cases h : s.answers with
      | nil =>
        simp [runOps, runOp, expanderWrite, i2cWrite, h, opEvents, MicroOp.event, State.settle, State.played]
        rw [← h]
      | cons x rest =>
        cases x with
        | ok =>
          simp only [runOps, runOp, expanderWrite, i2cWrite, h, ih, opEvents, List.map_cons, MicroOp.event,
            State.nextPhase_cfg, State.emit_cfg, State.answered_cfg, State.nextPhase_bl, State.emit_bl,
            State.answered_bl, State.nextPhase_answers, State.emit_answers, State.answered_answers,
            State.nextPhase_expOut, State.emit_expOut, State.answered_expOut, play_xfer_ok]
          congr 1
          simp [State.played, State.nextPhase, State.emit, State.answered, BitVec.ofNat_add, BitVec.add_assoc,
            BitVec.add_comm]
        | fail e l =>
          simp [runOps, runOp, expanderWrite, i2cWrite, h, opEvents, MicroOp.event, State.settle, State.played,
            takeXferFail, takeError, State.respond, State.stopHost, State.emit, State.answered]

/-- No sequence is longer than 10 (R23, R105). -/
theorem State.length_ops (s : State) :
    s.ops.length = match s.seq with | .zero => 1 | .nibble => 5 | .byte => 10 := by
  unfold State.ops opSequence
  cases s.seq <;> simp [sendByte, write4, pulseEnable]

/-- What the run of a sequence leaves alone, whatever the master answers. -/
theorem runOps_frame (ops : List MicroOp) (s : State) :
    (runOps ops s).cfg = s.cfg ∧ (runOps ops s).bl = s.bl ∧ (runOps ops s).latchV = s.latchV ∧
    (runOps ops s).latchM = s.latchM ∧ (runOps ops s).seq = s.seq ∧ (runOps ops s).dc = s.dc ∧
    (runOps ops s).em = s.em ∧ (runOps ops s).fs = s.fs ∧ (runOps ops s).rst = s.rst ∧
    ((runOps ops s).host = .direct ∨ (runOps ops s).host = s.host) ∧
    ((runOps ops s).init = s.init ∨ (runOps ops s).init = false) ∧ (runOps ops s).grain = s.grain ∧
    s.trace <+: (runOps ops s).trace := by
  rw [runOps_eq]
  generalize play _ _ _ = p
  rcases p.ending with _ | e | _ <;>
    simp [State.settle, State.played, takeXferFail, takeError, initAfter]

/-! ## The pin map -/

/-- Clearing bits that are clear changes nothing (R104). -/
theorem and_not_of_disjoint {d m : Byte} (h : d &&& m = 0) : d &&& ~~~m = d := by
  ext i hi
  have := congrArg (fun x : Byte => x[i]) h
  simp at this ⊢
  exact this

/-- Bits inside a field are clear of every mask outside it. -/
theorem and_eq_zero_of_inside {x f m : Byte} (hx : x &&& ~~~f = 0) (hm : m &&& f = 0) : x &&& m = 0 := by
  ext i hi
  have h1 := congrArg (fun y : Byte => y[i]) hx
  have h2 := congrArg (fun y : Byte => y[i]) hm
  simp at h1 h2 ⊢
  grind

theorem or_and_zero {a b m : Byte} (ha : a &&& m = 0) (hb : b &&& m = 0) : (a ||| b) &&& m = 0 := by
  ext i hi
  have h1 := congrArg (fun y : Byte => y[i]) ha
  have h2 := congrArg (fun y : Byte => y[i]) hb
  simp at h1 h2 ⊢
  grind

/-- R3's constraint, one clause at a time. -/
theorem PinMap.wf_iff (p : PinMap) :
    p.wf = true ↔
      (oneHot p.pRs = true ∧ oneHot p.pRw = true ∧ oneHot p.pEn = true ∧ oneHot p.pBl = true ∧
        fourAdjacent p.pData = true) ∧
      p.pRs &&& p.pRw = 0 ∧ p.pRs &&& p.pEn = 0 ∧ p.pRs &&& p.pBl = 0 ∧ p.pRw &&& p.pEn = 0 ∧
      p.pRw &&& p.pBl = 0 ∧ p.pEn &&& p.pBl = 0 ∧ p.pRs &&& p.pData = 0 ∧ p.pRw &&& p.pData = 0 ∧
      p.pEn &&& p.pData = 0 ∧ p.pBl &&& p.pData = 0 := by
  simp [PinMap.wf, and_assoc]

/-- A placed nibble lies on the data lines. -/
theorem place_inside {p : PinMap} (h : fourAdjacent p.pData = true) (n : Nibble) : place p n &&& ~~~p.pData = 0 := by
  simp only [fourAdjacent, List.contains_eq_mem, List.mem_cons, List.not_mem_nil, or_false, decide_eq_true_eq] at h
  simp only [place, dataShift]
  generalize p.pData = data at h ⊢
  rcases h with h | h | h | h | h <;> subst h <;> decide +revert

/-- The default `P_DATA` gives R67's `v & 0xF0`. -/
theorem place_hiNibble {p : PinMap} (h : p.pData = 0xF0) (v : Byte) : place p (hiNibble v) = v &&& 0xF0 := by
  simp only [place, dataShift, h, hiNibble]
  revert v; decide

/-- The default `P_DATA` gives R67's `(v << 4) & 0xF0`. -/
theorem place_loNibble {p : PinMap} (h : p.pData = 0xF0) (v : Byte) : place p (loNibble v) = (v <<< 4) &&& 0xF0 := by
  simp only [place, dataShift, h, loNibble]
  revert v; decide

theorem place_and_en {p : PinMap} (h : p.wf = true) (n : Nibble) : place p n &&& p.pEn = 0 := by
  rw [PinMap.wf_iff] at h
  exact and_eq_zero_of_inside (place_inside h.1.2.2.2.2 n) h.2.2.2.2.2.2.2.2.2.1

theorem place_and_rw {p : PinMap} (h : p.wf = true) (n : Nibble) : place p n &&& p.pRw = 0 := by
  rw [PinMap.wf_iff] at h
  exact and_eq_zero_of_inside (place_inside h.1.2.2.2.2 n) h.2.2.2.2.2.2.2.2.1

theorem place_and_bl {p : PinMap} (h : p.wf = true) (n : Nibble) : place p n &&& p.pBl = 0 := by
  rw [PinMap.wf_iff] at h
  exact and_eq_zero_of_inside (place_inside h.1.2.2.2.2 n) h.2.2.2.2.2.2.2.2.2.2

/-- The mode bits never contain `P_EN` (R68). -/
theorem mode_and_en {p : PinMap} (h : p.wf = true) (r : Request) : r.mode p &&& p.pEn = 0 := by
  rw [PinMap.wf_iff] at h
  cases r <;> simp [Request.mode, h.2.2.1]

/-! ## The run of a request -/

@[simp] theorem hiNibble_operand_cmd (v : Byte) : (Request.cmd v).operand = v := rfl

@[simp] theorem loNibble_operand_nib (n : Nibble) : loNibble (Request.operand (.nib n)) = n := by
  revert n; decide

/-- Acceptance writes the register R101 says. -/
theorem backlight_eq_encBl (bl : Bool) (r : Request) : r.backlight bl = encBl bl r := by
  cases r <;> rfl

/-- A nibble write puts R101's `nib(d, m)` on the bus, when `P_EN` is clear in `d` (R92). -/
theorem opEvents_write4 (c : Config) (bl : Bool) {d : Byte} (h : d &&& c.pins.pEn = 0) :
    opEvents c bl (write4 c d) = nibEvents c (blMask c.pins bl) d := by
  simp [opEvents, write4, pulseEnable, MicroOp.event, merge, nibEvents, and_not_of_disjoint h]

/-- The micro-operations of R105 are the encoder of R101. -/
theorem opEvents_opSequence {c : Config} (h : c.pins.wf = true) (bl : Bool) (r : Request) :
    opEvents c (r.backlight bl) (opSequence c r.seqKind r.operand (r.mode c.pins)) = encEvents c bl r := by
  have hp (n : Nibble) : (place c.pins n ||| r.mode c.pins) &&& c.pins.pEn = 0 :=
    or_and_zero (place_and_en h n) (mode_and_en h r)
  cases r with
  | cmd v =>
    simp [opSequence, Request.seqKind, sendByte, opEvents_write4 _ _ (place_and_en h _), encEvents, Request.mode,
      Request.backlight, Request.operand]
  | dat v =>
    simp only [Request.mode] at hp
    simp [opSequence, Request.seqKind, sendByte, opEvents_write4 _ _ (hp _), encEvents, Request.mode,
      Request.backlight, Request.operand]
  | nib n =>
    simp [opSequence, Request.seqKind, opEvents_write4 _ _ (place_and_en h _), encEvents, Request.mode, Request.backlight]
  | blw b => simp [opSequence, Request.seqKind, opEvents, MicroOp.event, merge, encEvents, Request.backlight]
  | xwr => simp [opSequence, Request.seqKind, opEvents, MicroOp.event, merge, encEvents, Request.backlight]

/-- The play of a request accepted in `s`. -/
def State.requestPlay (s : State) (r : Request) : Played := play (encEvents s.cfg s.bl r) s.answers s.expOut

/-- EVERYTHING a request CAN DO: it plays R101's encoder to the master and settles. -/
theorem runRequest_eq {s : State} (h : s.cfg.pins.wf = true) (r : Request) :
    runRequest r s =
      ((s.accept r).played (s.requestPlay r) (BitVec.ofNat 4 (s.requestPlay r).events.length)).settle
        (s.requestPlay r).ending := by
  have hrem : (s.accept r).remaining = opSequence s.cfg r.seqKind r.operand (r.mode s.cfg.pins) := rfl
  simp only [runRequest, runBlock, hrem, runOps_eq, State.accept_cfg, State.accept_bl, State.accept_answers,
    State.accept_expOut, State.accept_phase, opEvents_opSequence h, State.requestPlay, zero_add]

theorem runRequest_completed {s : State} (h : s.cfg.pins.wf = true) {r : Request}
    (hp : (s.requestPlay r).ending = .completed) :
    runRequest r s = ((s.accept r).played (s.requestPlay r) 0).respond .ok := by
  rw [runRequest_eq h, hp]; rfl

theorem runRequest_failed {s : State} (h : s.cfg.pins.wf = true) {r : Request} {e : ErrVal}
    (hp : (s.requestPlay r).ending = .failed e) :
    runRequest r s = takeXferFail e ((s.accept r).played (s.requestPlay r) 0) := by
  rw [runRequest_eq h, hp]; rfl

theorem runRequest_waiting {s : State} (h : s.cfg.pins.wf = true) {r : Request}
    (hp : (s.requestPlay r).ending = .waiting) :
    runRequest r s =
      (s.accept r).played (s.requestPlay r) (BitVec.ofNat 4 (s.requestPlay r).events.length) := by
  rw [runRequest_eq h, hp]; rfl

/-! ## The grain of a step -/

theorem beginRequest_whole {s : State} (h : s.grain = .whole) (r : Request) : beginRequest r s = runRequest r s := by
  simp [beginRequest, h]

theorem beginRequest_micro {s : State} (h : s.grain = .micro) (r : Request) : beginRequest r s = s.accept r := by
  simp [beginRequest, h]

theorem beginRoutine_whole {s : State} (h : s.grain = .whole) (acts : List HostAction) :
    beginRoutine acts s = runRoutine acts s := by
  simp [beginRoutine, h]

theorem beginRoutine_micro {s : State} (h : s.grain = .micro) (acts : List HostAction) :
    beginRoutine acts s = s.setHost (.routine acts) := by
  simp [beginRoutine, h]

theorem goOn_whole {s : State} (h : s.grain = .whole) : goOn s = resume s := by simp [goOn, h]

theorem goOn_micro {s : State} (h : s.grain = .micro) : goOn s = microStep s := by simp [goOn, h]

theorem goOnRoutine_whole {s : State} (h : s.grain = .whole) (acts : List HostAction) :
    goOnRoutine acts s = runRoutine acts s := by
  simp [goOnRoutine, h]

theorem goOnRoutine_micro_nil {s : State} (h : s.grain = .micro) : goOnRoutine [] s = s.setHost .direct := by
  simp [goOnRoutine, h]

theorem goOnRoutine_micro_cons {s : State} (h : s.grain = .micro) (a : HostAction) (rest : List HostAction) :
    goOnRoutine (a :: rest) s = startAction a (s.setHost (.routine rest)) := by
  simp [goOnRoutine, h]

/-- EVERYTHING the block's own step CAN DO (R23, R102, R54). -/
theorem microStep_cases (s : State) :
    (s.remaining = [] ∧ microStep s = s) ∨
    ∃ op ops, s.remaining = op :: ops ∧
      ((∃ s', runOp op s = .done s' ∧ microStep s = if ops = [] then s'.respond .ok else s') ∨
        (∃ e s', runOp op s = .failed e s' ∧ microStep s = takeXferFail e s') ∨
        (runOp op s = .waiting ∧ microStep s = s)) := by
  unfold microStep
  split
  · exact .inl ⟨‹_›, rfl⟩
  · rename_i op ops h
    refine .inr ⟨op, ops, h, ?_⟩
    split
    · exact .inl ⟨_, ‹_›, rfl⟩
    · exact .inr (.inl ⟨_, _, ‹_›, rfl⟩)
    · exact .inr (.inr ⟨‹_›, rfl⟩)

/-! ## The run of a routine -/

@[simp] theorem runRoutine_nil (s : State) : runRoutine [] s = s.setHost .direct := rfl

/-- One action of a routine, and then the rest unless a request is in progress or has failed. -/
theorem runRoutine_cons (a : HostAction) (rest : List HostAction) (s : State) :
    runRoutine (a :: rest) s =
      match (perform a (s.setHost (.routine rest))).busy, (perform a (s.setHost (.routine rest))).host with
      | false, .routine _ => runRoutine rest (perform a (s.setHost (.routine rest)))
      | _, _ => perform a (s.setHost (.routine rest)) := rfl

theorem runRoutine_hwait (n : Micros) (rest : List HostAction) {s : State} (h : s.busy = false) :
    runRoutine (.hwait n :: rest) s = runRoutine rest ((s.setHost (.routine rest)).emit (.wait n)) := by
  simp [runRoutine, perform, waitUs, h]

theorem runRoutine_setFs (v : FunctionSet) (rest : List HostAction) {s : State} (h : s.busy = false) :
    runRoutine (.setFs v :: rest) s = runRoutine rest { s.setHost (.routine rest) with fs := v } := by
  simp [runRoutine, perform, h]

theorem runRoutine_setDc (v : DisplayControl) (rest : List HostAction) {s : State} (h : s.busy = false) :
    runRoutine (.setDc v :: rest) s = runRoutine rest { s.setHost (.routine rest) with dc := v } := by
  simp [runRoutine, perform, h]

theorem runRoutine_setEm (v : EntryMode) (rest : List HostAction) {s : State} (h : s.busy = false) :
    runRoutine (.setEm v :: rest) s = runRoutine rest { s.setHost (.routine rest) with em := v } := by
  simp [runRoutine, perform, h]

theorem runRoutine_markInit (rest : List HostAction) {s : State} (h : s.busy = false) :
    runRoutine (.markInit :: rest) s = runRoutine rest { s.setHost (.routine rest) with init := true } := by
  simp [runRoutine, perform, h]

@[simp] theorem State.setHost_requestPlay (s : State) (h : HostRoutine) (r : Request) :
    (s.setHost h).requestPlay r = s.requestPlay r := rfl

/-- A request of a routine that completes: the routine goes on. -/
theorem runRoutine_request_completed {s : State} (hw : s.cfg.pins.wf = true) {r : Request} (rest : List HostAction)
    (hp : (s.requestPlay r).ending = .completed) :
    runRoutine (.request r :: rest) s =
      runRoutine rest ((((s.setHost (.routine rest)).accept r).played (s.requestPlay r) 0).respond .ok) := by
  have := runRequest_completed (s := s.setHost (.routine rest)) (r := r) hw (by simpa using hp)
  simp only [State.setHost_requestPlay] at this
  simp [runRoutine, perform, this, State.played]

/-- A request of a routine that fails: the routine stops (R120). -/
theorem runRoutine_request_failed {s : State} (hw : s.cfg.pins.wf = true) {r : Request} (rest : List HostAction)
    {e : ErrVal} (hp : (s.requestPlay r).ending = .failed e) :
    runRoutine (.request r :: rest) s =
      takeXferFail e (((s.setHost (.routine rest)).accept r).played (s.requestPlay r) 0) := by
  have := runRequest_failed (s := s.setHost (.routine rest)) (r := r) hw (by simpa using hp)
  simp only [State.setHost_requestPlay] at this
  simp [runRoutine, perform, this, takeXferFail, takeError]

/-- A request of a routine that waits: the routine waits with it. -/
theorem runRoutine_request_waiting {s : State} (hw : s.cfg.pins.wf = true) {r : Request} (rest : List HostAction)
    (hp : (s.requestPlay r).ending = .waiting) :
    runRoutine (.request r :: rest) s =
      ((s.setHost (.routine rest)).accept r).played (s.requestPlay r)
        (BitVec.ofNat 4 (s.requestPlay r).events.length) := by
  have := runRequest_waiting (s := s.setHost (.routine rest)) (r := r) hw (by simpa using hp)
  simp only [State.setHost_requestPlay] at this
  simp [runRoutine, perform, this, State.played]

/-- What a routine puts on the bus and in the trace, and how it leaves the block and the host, for every list of the
master's answers (R49, R101, R120). -/
theorem runRoutine_play (acts : List HostAction) {s : State} (hb : s.busy = false) (hw : s.cfg.pins.wf = true)
    {p : Played} (hp : play (routineEvents s.cfg s.bl acts) s.answers s.expOut = p) :
    (runRoutine acts s).trace = s.trace ++ p.events ++ p.ending.response ∧
    (runRoutine acts s).answers = p.answers ∧
    (runRoutine acts s).expOut = p.out ∧
    (runRoutine acts s).cfg = s.cfg ∧
    (runRoutine acts s).rst = s.rst ∧
    (runRoutine acts s).grain = s.grain ∧
    ((runRoutine acts s).busy = true ↔ p.ending = .waiting) ∧
    (p.ending ≠ .waiting → (runRoutine acts s).host = .direct) ∧
    (∀ e, p.ending = .failed e →
      (runRoutine acts s).init = false ∧ (runRoutine acts s).program = [] ∧ (runRoutine acts s).phase = 0) ∧
    ((¬ ∃ e, p.ending = .failed e) → (runRoutine acts s).program = s.program) := by
  induction acts generalizing s p with
  | nil =>
    subst hp
    simp [routineEvents, Ending.response, hb]
  | cons a rest ih =>
    subst hp
    cases a with
    | hwait n =>
      rw [runRoutine_hwait n rest hb]
      have := ih (s := (s.setHost (.routine rest)).emit (.wait n)) hb hw rfl
      simpa [routineEvents] using this
    | setFs v =>
      rw [runRoutine_setFs v rest hb]
      exact ih (s := { s.setHost (.routine rest) with fs := v }) hb hw rfl
    | setDc v =>
      rw [runRoutine_setDc v rest hb]
      exact ih (s := { s.setHost (.routine rest) with dc := v }) hb hw rfl
    | setEm v =>
      rw [runRoutine_setEm v rest hb]
      exact ih (s := { s.setHost (.routine rest) with em := v }) hb hw rfl
    | markInit =>
      rw [runRoutine_markInit rest hb]
      exact ih (s := { s.setHost (.routine rest) with init := true }) hb hw rfl
    | request r =>
      rcases hend : (s.requestPlay r).ending with _ | e | _
      · rw [runRoutine_request_completed hw rest hend]
        have hsplit := play_append_completed (.rsp .ok :: routineEvents s.cfg (encBl s.bl r) rest) hend
        rw [State.requestPlay] at hend
        have := ih (s := (((s.setHost (.routine rest)).accept r).played (s.requestPlay r) 0).respond .ok) rfl hw rfl
        simp only [routineEvents, hsplit]
        simpa [State.played, backlight_eq_encBl, State.requestPlay] using this
      · rw [runRoutine_request_failed hw rest hend]
        have hsplit := play_append_stopped (.rsp .ok :: routineEvents s.cfg (encBl s.bl r) rest)
          (xs := encEvents s.cfg s.bl r) (ans := s.answers) (out := s.expOut)
          (by rw [← State.requestPlay, hend]; simp)
        simp only [routineEvents, hsplit]
        rw [State.requestPlay] at hend
        simp [takeXferFail, takeError, State.played, State.requestPlay, hend, Ending.response, initAfter]
      · rw [runRoutine_request_waiting hw rest hend]
        have hsplit := play_append_stopped (.rsp .ok :: routineEvents s.cfg (encBl s.bl r) rest)
          (xs := encEvents s.cfg s.bl r) (ans := s.answers) (out := s.expOut)
          (by rw [← State.requestPlay, hend]; simp)
        simp only [routineEvents, hsplit]
        rw [State.requestPlay] at hend
        simp [State.played, State.requestPlay, hend, Ending.response]

end Sys2Proof.Machine
end

