-- ==== Sys2Proof/Laws/Exec.lean ====
section
/-! SUPPORT. What `exec` does, said once: when ready, an instruction begins its expansion (as one request for the
`REQ11` and `CMD8` rows, as a routine for the `PSEUDO` rows), or it is refused where it has none. -/

namespace Sys2Proof.Machine

/-- A primitive request, when ready, is begun. -/
theorem exec_request {s : State} (h : s.ready = true) (r : Request) :
    exec r.toInstr s = .next (beginRequest r s) := by
  cases r <;>
    simp [exec, Request.toInstr, execCmd, execDat, execNib, execBlw, execXwr, execRequest, whenReady_of_ready h]

/-- EVERYTHING `exec` CAN DO when the machine is ready. -/
theorem exec_of_ready {s : State} (h : s.ready = true) (i : Instr) :
    (∃ r, i.isPseudo = false ∧ expansion s i = some [.request r] ∧ exec i s = .next (beginRequest r s)) ∨
    (∃ acts, i.isPseudo = true ∧ expansion s i = some acts ∧ exec i s = .next (beginRoutine acts s)) ∨
    (i.isPseudo = true ∧ expansion s i = none ∧ ∃ e, exec i s = .refused e) := by
  cases i with
  | setCursor col row =>
    simp only [exec, execSetCursor, whenReady_of_ready h, expansion, Instr.isPseudo]
    cases cursorAddress s.cfg col row <;> simp
  | print text =>
    simp only [exec, execPrint, whenReady_of_ready h, expansion, Instr.isPseudo, sendData]
    cases textBytes text <;> simp
  | _ =>
    simp [exec, expansion, Instr.isPseudo, execRequest, execRoutine, whenReady_of_ready h, bootActions, sendDc, sendEm,
      updateThenSend, sendData, execCmd, execDat, execNib, execBlw, execXwr, execClearDisplay, execReturnHome,
      execEntryModeSet, execDisplayControl, execCursorShift, execFunctionSet, execSetCgramAddr, execSetDdramAddr,
      execInitializeOp, execClear, execHome, execNoDisplay, execDisplay, execNoCursor, execCursor, execNoBlink,
      execBlink, execScrollDisplayLeft, execScrollDisplayRight, execLeftToRight, execRightToLeft, execAutoscroll,
      execNoAutoscroll, execCreateChar, execNoBacklight, execBacklight, execWrite]

/-- EVERYTHING `exec` CAN DO when the machine is not ready (R24, R99). -/
theorem exec_of_not_ready {s : State} (h : s.ready = false) (i : Instr) :
    exec i s = .next (s.setProgram (.call i :: s.program)) := by
  cases i <;>
    simp only [exec, execRequest, execRoutine, whenReady_of_not_ready h, execCmd, execDat, execNib, execBlw, execXwr,
      execClearDisplay, execReturnHome, execEntryModeSet, execDisplayControl, execCursorShift, execFunctionSet,
      execSetCgramAddr, execSetDdramAddr, execInitializeOp, execClear, execHome, execSetCursor, execNoDisplay,
      execDisplay, execNoCursor, execCursor, execNoBlink, execBlink, execScrollDisplayLeft, execScrollDisplayRight,
      execLeftToRight, execRightToLeft, execAutoscroll, execNoAutoscroll, execCreateChar, execNoBacklight,
      execBacklight, execPrint, execWrite]

end Sys2Proof.Machine
end

