-- ==== Sys2Proof/Laws/PerInstr.lean ====
section
/-! SUPPORT. For each instruction: its word has the form of its row in spec/opcode_table.json, bit by bit, or it has no
word (R76). -/

namespace Sys2Proof.Laws.RowPattern

/-- What the table gives a row: how many bits, and the `match` and `mask` of its pattern. -/
structure Row where
  bits : Nat
  value : Nat
  mask : Nat

/-- `match` and `mask` of spec/opcode_table.json; a `PSEUDO` row carries neither. -/
def row : Instr → Option Row
  | .cmd _ => some ⟨11, 0x000, 0x700⟩
  | .dat _ => some ⟨11, 0x100, 0x700⟩
  | .nib _ => some ⟨11, 0x200, 0x7F0⟩
  | .blw _ => some ⟨11, 0x300, 0x7FE⟩
  | .xwr => some ⟨11, 0x400, 0x7FF⟩
  | .clearDisplay => some ⟨8, 0x01, 0xFF⟩
  | .returnHome => some ⟨8, 0x02, 0xFF⟩
  | .entryModeSet _ _ => some ⟨8, 0x04, 0xFC⟩
  | .displayControl _ _ _ => some ⟨8, 0x08, 0xF8⟩
  | .cursorShift _ _ => some ⟨8, 0x10, 0xF3⟩
  | .functionSet _ _ _ => some ⟨8, 0x20, 0xE3⟩
  | .setCgramAddr _ => some ⟨8, 0x40, 0xC0⟩
  | .setDdramAddr _ => some ⟨8, 0x80, 0x80⟩
  | _ => none

/-- The number a word's bytes spell, the first the least significant. -/
def number : List Byte → Nat
  | [] => 0
  | b :: bs => b.toNat + 256 * number bs

/-- The instruction's word fits its row's bits and matches its pattern: `w & mask = match` (R76); an instruction whose row
has no pattern has no word. -/
def fits (i : Instr) : Bool :=
  match row i, encode i with
  | some r, some bs => decide (number bs < 2 ^ r.bits) && number bs &&& r.mask == r.value
  | none, none => i.isPseudo
  | _, _ => false

/-- Said of one instruction. -/
def Statement (i : Instr) : Prop := fits i = true

theorem cmd (v : Byte) : Statement (.cmd v) := by revert v; unfold Statement; decide
theorem dat (v : Byte) : Statement (.dat v) := by revert v; unfold Statement; decide
theorem nib (n : Nibble) : Statement (.nib n) := by revert n; unfold Statement; decide
theorem blw (b : Bool) : Statement (.blw b) := by revert b; unfold Statement; decide
theorem xwr : Statement .xwr := by unfold Statement; decide
theorem clearDisplay : Statement .clearDisplay := by unfold Statement; decide
theorem returnHome : Statement .returnHome := by unfold Statement; decide
theorem entryModeSet (i s : Bool) : Statement (.entryModeSet i s) := by revert i s; unfold Statement; decide
theorem displayControl (d c b : Bool) : Statement (.displayControl d c b) := by revert d c b; unfold Statement; decide
theorem cursorShift (m r : Bool) : Statement (.cursorShift m r) := by revert m r; unfold Statement; decide
theorem functionSet (l n f : Bool) : Statement (.functionSet l n f) := by revert l n f; unfold Statement; decide
theorem setCgramAddr (a : BitVec 6) : Statement (.setCgramAddr a) := by revert a; unfold Statement; decide
theorem setDdramAddr (a : BitVec 7) : Statement (.setDdramAddr a) := by revert a; unfold Statement; decide
theorem initializeOp : Statement .initializeOp := rfl
theorem clear : Statement .clear := rfl
theorem home : Statement .home := rfl
theorem setCursor (col row : Nat) : Statement (.setCursor col row) := rfl
theorem noDisplay : Statement .noDisplay := rfl
theorem display : Statement .display := rfl
theorem noCursor : Statement .noCursor := rfl
theorem cursor : Statement .cursor := rfl
theorem noBlink : Statement .noBlink := rfl
theorem blink : Statement .blink := rfl
theorem scrollDisplayLeft : Statement .scrollDisplayLeft := rfl
theorem scrollDisplayRight : Statement .scrollDisplayRight := rfl
theorem leftToRight : Statement .leftToRight := rfl
theorem rightToLeft : Statement .rightToLeft := rfl
theorem autoscroll : Statement .autoscroll := rfl
theorem noAutoscroll : Statement .noAutoscroll := rfl
theorem createChar (location : Nat) (bitmap : List Byte) : Statement (.createChar location bitmap) := rfl
theorem noBacklight : Statement .noBacklight := rfl
theorem backlight : Statement .backlight := rfl
theorem print (text : List Nat) : Statement (.print text) := rfl
theorem write (byteValue : Byte) : Statement (.write byteValue) := rfl

end Sys2Proof.Laws.RowPattern
end

