-- ==== Sys2Proof/Laws/Verdicts.lean ====
section
/-! SUPPORT. Playing a trace to a master whose coming verdicts are known: all the transfers complete, or the `k`-th
fails; and what that makes of a request. -/

namespace Sys2Proof.Machine

/-- The trace of a run in which nothing fails. -/
def noFail (evs : List Event) : Prop := ∀ a b e, Event.xfail a b e ∉ evs

@[simp] theorem transfers_nil : transfers [] = 0 := rfl

@[simp] theorem transfers_xfer (a : BusAddr) (b : Byte) (evs : List Event) :
    transfers (.xfer a b :: evs) = transfers evs + 1 := by simp [transfers]

@[simp] theorem transfers_wait (n : Micros) (evs : List Event) : transfers (.wait n :: evs) = transfers evs := by
  simp [transfers]

@[simp] theorem transfers_rsp (r : Response) (evs : List Event) : transfers (.rsp r :: evs) = transfers evs := by
  simp [transfers]

@[simp] theorem transfers_append (xs ys : List Event) : transfers (xs ++ ys) = transfers xs + transfers ys := by
  simp [transfers]

@[simp] theorem waits_append (xs ys : List Event) : waits (xs ++ ys) = waits xs + waits ys := by simp [waits]

@[simp] theorem waitTime_append (xs ys : List Event) : waitTime (xs ++ ys) = waitTime xs + waitTime ys := by
  simp [waitTime]

@[simp] theorem expOutOf_append (xs ys : List Event) (out : Byte) :
    expOutOf (xs ++ ys) out = expOutOf ys (expOutOf xs out) := by
  induction xs generalizing out with
  | nil => rfl
  | cons ev evs ih => cases ev <;> simp [expOutOf, ih]

theorem noFail_encEvents (c : Config) (bl : Bool) (r : Request) : noFail (encEvents c bl r) := by
  intro a b e
  cases r <;> simp [encEvents, nibEvents]

theorem length_encEvents_le (c : Config) (bl : Bool) (r : Request) : (encEvents c bl r).length ≤ 10 := by
  cases r <;> simp [encEvents, nibEvents]

theorem transfers_encEvents (c : Config) (bl : Bool) (r : Request) :
    transfers (encEvents c bl r) = match r with | .xwr | .blw _ => 1 | .nib _ => 3 | .cmd _ | .dat _ => 6 := by
  cases r <;> simp [encEvents, nibEvents]

/-- A master that completes every transfer: all of the trace happens. -/
theorem play_ok {evs : List Event} (h : noFail evs) (rest : List Answer) (out : Byte) :
    play evs (List.replicate (transfers evs) .ok ++ rest) out = ⟨evs, rest, expOutOf evs out, .completed⟩ := by
  induction evs generalizing out with
  | nil => simp [expOutOf]
  | cons ev evs ih =>
    have h' : noFail evs := fun a b e hm => h a b e (List.mem_cons_of_mem _ hm)
    cases ev with
    | xfer a b => simp [List.replicate_succ, ih h', expOutOf]
    | xfail a b e => exact absurd (List.mem_cons_self ..) (h a b e)
    | wait n => simp [ih h', expOutOf]
    | rsp r => simp [ih h', expOutOf]

/-- A master that fails the `k`-th transfer: the trace up to it, and nothing after. -/
theorem play_failAt {evs : List Event} (h : noFail evs) {k : Nat} (hk : k < transfers evs) (e : ErrVal)
    (latched : Bool) (rest : List Answer) (out : Byte) :
    ∃ before a b, failAt evs k e = before ++ [.xfail a b e] ∧ .xfer a b ∈ evs ∧
      play evs (List.replicate k .ok ++ .fail e latched :: rest) out =
        ⟨failAt evs k e, rest, if latched then b else expOutOf before out, .failed e⟩ := by
  induction evs generalizing k out with
  | nil => simp at hk
  | cons ev evs ih =>
    have h' : noFail evs := fun a b e hm => h a b e (List.mem_cons_of_mem _ hm)
    cases ev with
    | xfer a b =>
      cases k with
      | zero => exact ⟨[], a, b, by simp [failAt], by simp, by simp [failAt, expOutOf]⟩
      | succ k =>
        obtain ⟨before, a', b', h1, h2, h3⟩ := ih h' (k := k) (by simpa using hk) b
        exact ⟨.xfer a b :: before, a', b', by simp [failAt, h1], by simp [h2],
          by simp [List.replicate_succ, h3, failAt, expOutOf]⟩
    | xfail a b e => exact absurd (List.mem_cons_self ..) (h a b e)
    | wait n =>
      obtain ⟨before, a', b', h1, h2, h3⟩ := ih h' (k := k) (by simpa using hk) out
      exact ⟨.wait n :: before, a', b', by simp [failAt, h1], by simp [h2], by simp [h3, failAt, expOutOf]⟩
    | rsp r =>
      obtain ⟨before, a', b', h1, h2, h3⟩ := ih h' (k := k) (by simpa using hk) out
      exact ⟨.rsp r :: before, a', b', by simp [failAt, h1], by simp [h2], by simp [h3, failAt, expOutOf]⟩

/-- Every transfer of the encoder goes to `I2C_ADDR`. -/
theorem encEvents_address {c : Config} {bl : Bool} {r : Request} {a : BusAddr} {b : Byte}
    (h : .xfer a b ∈ encEvents c bl r) : a = c.i2cAddr := by
  cases r <;> simp [encEvents, nibEvents] at h <;> grind

/-- A request whose transfers all complete. -/
theorem requestPlay_ok {s : State} {r : Request} {n : Nat} {rest : List Answer}
    (hn : n = transfers (encEvents s.cfg s.bl r)) (h : answersOk n rest s) :
    s.requestPlay r = ⟨encEvents s.cfg s.bl r, rest, expOutOf (encEvents s.cfg s.bl r) s.expOut, .completed⟩ := by
  rw [State.requestPlay, h, hn, play_ok (noFail_encEvents _ _ _)]

/-- A request whose `k`-th transfer fails. -/
theorem requestPlay_fail {s : State} {r : Request} {k : Nat} {e : ErrVal} {latched : Bool} {rest : List Answer}
    (hk : k < transfers (encEvents s.cfg s.bl r)) (h : answersFail k e latched rest s) :
    ∃ before b, failAt (encEvents s.cfg s.bl r) k e = before ++ [.xfail s.cfg.i2cAddr b e] ∧
      s.requestPlay r =
        ⟨failAt (encEvents s.cfg s.bl r) k e, rest, if latched then b else expOutOf before s.expOut, .failed e⟩ := by
  obtain ⟨before, a, b, h1, h2, h3⟩ := play_failAt (noFail_encEvents s.cfg s.bl r) hk e latched rest s.expOut
  obtain rfl := encEvents_address h2
  exact ⟨before, b, h1, by rw [State.requestPlay, h, h3]⟩

end Sys2Proof.Machine
end

