-- ==== Sys2Proof/Tests/Slice0.lean ====
section
/-! SUPPORT. The model's own tests: ill-formed terms refused, words of the spec decoded, one instruction at a time against
the vectors of spec/95_test_vectors.md, and a witness for each statement that has hypotheses. -/

namespace Sys2Proof.Tests

open Sys2Proof.Machine

/-! ## A small machine -/

/-- Every parameter at its default, at bus address 0x27. -/
def board : Config := { Config.standard with i2cAddr := 0x27 }

/-- The end state of P1, with backlight `bl` and the master's verdicts `answers` to come. -/
def up (bl : Bool) (answers : List Answer) : State :=
  { State.resetWith board ResetDraw.named 0x20 with
    bl := bl, dc := ⟨true, false, false⟩, em := ⟨true, false⟩, fs := ⟨false, true, false⟩, init := true
    answers := answers }

/-- `n` transfers that complete. -/
def oks (n : Nat) : List Answer := List.replicate n .ok

/-- `k` transfers that complete, and one that fails. -/
def failing (k : Nat) : List Answer := List.replicate k .ok ++ [.fail 7 false]

/-- The state a step leads to, if it leads to one. -/
def after (o : Host.Outcome State Fault Refusal) : Option State :=
  match o with
  | .next s => some s
  | .fault _ | .refused _ => none

/-- The trace an instruction leaves. -/
def traceOf (i : Instr) (s : State) : Option (List Event) := (after (exec i s)).map State.trace

/-- The bytes on the bus of what an instruction does. -/
def bytesOf (i : Instr) (s : State) : Option (List Byte) :=
  (traceOf i s).map fun evs => evs.filterMap fun e => match e with | .xfer _ b => some b | _ => none

/-- The spec's compact notation for a transfer. -/
def x (b : Byte) : Event := .xfer 0x27 b

/-- The spec's compact notation for a wait. -/
def w (n : Micros) : Event := .wait n

/-! ## Well-formedness: an ill-formed term for each check -/

theorem test_wf_refuses_a_wide_character : (Instr.print [0x41, 0x100]).wellFormed = false := by decide

theorem test_wf_takes_the_widest_byte : (Instr.print [0x00, 0xFF]).wellFormed = true := by decide

theorem test_wf_refuses_masks :
    PinMap.wf { PinMap.standard with pRs := 0x00 } = false ∧ PinMap.wf { PinMap.standard with pRw := 0x00 } = false ∧
    PinMap.wf { PinMap.standard with pEn := 0x00 } = false ∧ PinMap.wf { PinMap.standard with pBl := 0x00 } = false ∧
    PinMap.wf ⟨0x01, 0x02, 0x04, 0x08, 0xB0⟩ = false := by decide

theorem test_wf_refuses_overlaps :
    PinMap.wf { PinMap.standard with pRw := 0x01 } = false ∧ PinMap.wf { PinMap.standard with pEn := 0x01 } = false ∧
    PinMap.wf { PinMap.standard with pBl := 0x01 } = false ∧ PinMap.wf { PinMap.standard with pEn := 0x02 } = false ∧
    PinMap.wf { PinMap.standard with pBl := 0x02 } = false ∧ PinMap.wf { PinMap.standard with pBl := 0x04 } = false ∧
    PinMap.wf { PinMap.standard with pRs := 0x10 } = false ∧ PinMap.wf { PinMap.standard with pRw := 0x20 } = false ∧
    PinMap.wf { PinMap.standard with pEn := 0x40 } = false ∧
    PinMap.wf { PinMap.standard with pBl := 0x80 } = false := by
  decide

theorem test_wf_refuses_parameters :
    Config.wf { board with cols := 0 } = false ∧ Config.wf { board with rows := 0 } = false ∧
    Config.wf { board with rows := 5 } = false ∧ Config.wf { board with rowOffset := [0x00, 0x40, 0x14] } = false ∧
    Config.wf { board with pins := ⟨0x01, 0x01, 0x04, 0x08, 0xF0⟩ } = false ∧ Config.wf board = true := by decide

/-! ## Decoding: words written out from R61 and R70, and the illegal words of section 2.4 -/

theorem test_decode_cmd : decodeWord 0b00000101000 = .ok (.cmd 0x28) := by decide
theorem test_decode_dat : decodeWord 0b00101010100 = .ok (.dat 0x54) := by decide
theorem test_decode_nib : decodeWord 0b01000000011 = .ok (.nib 0x3) := by decide
theorem test_decode_blw : decodeWord 0b01100000001 = .ok (.blw true) ∧ decodeWord 0b01100000000 = .ok (.blw false) := by
  decide
theorem test_decode_xwr : decodeWord 0b10000000000 = .ok .xwr := by decide
theorem test_decode_clearDisplay : decodeTableWord 8 0b00000001 = some .clearDisplay := by decide
theorem test_decode_returnHome : decodeTableWord 8 0b00000010 = some .returnHome := by decide
theorem test_decode_entryModeSet :
    decodeTableWord 8 0b00000110 = some (.entryModeSet true false) ∧
    decodeTableWord 8 0b00000101 = some (.entryModeSet false true) := by decide
theorem test_decode_displayControl :
    decodeTableWord 8 0b00001100 = some (.displayControl true false false) ∧
    decodeTableWord 8 0b00001011 = some (.displayControl false true true) := by decide
theorem test_decode_cursorShift :
    decodeTableWord 8 0b00011000 = some (.cursorShift true false) ∧
    decodeTableWord 8 0b00010100 = some (.cursorShift false true) := by decide
theorem test_decode_functionSet :
    decodeTableWord 8 0b00101000 = some (.functionSet false true false) ∧
    decodeTableWord 8 0b00100100 = some (.functionSet false false true) ∧
    decodeTableWord 8 0b00110000 = some (.functionSet true false false) := by decide
theorem test_decode_setCgramAddr : decodeTableWord 8 0b01001000 = some (.setCgramAddr 0x08) := by decide
theorem test_decode_setDdramAddr : decodeTableWord 8 0b11000101 = some (.setDdramAddr 0x45) := by decide

theorem test_decode_illegal_words :
    decodeWord 0b10100000000 = .error (.reservedOp 0b101) ∧ decodeWord 0b11111111111 = .error (.reservedOp 0b111) ∧
    decodeWord 0b01000010011 = .error .nibReservedBits ∧ decodeWord 0b01100000010 = .error .blwReservedBits ∧
    decodeWord 0b10000000001 = .error .xwrReservedBits := by decide

/-- The command-byte rows leave bits 1:0 of CURSORSHIFT and FUNCTIONSET at 0, and 0x00 matches no row (R70, R75). -/
theorem test_decode_bytes_of_no_row :
    decodeTableWord 8 0x00 = none ∧ decodeTableWord 8 0x11 = none ∧ decodeTableWord 8 0x22 = none := by decide

theorem test_encode_words :
    encode (.dat 0x41) = some [0x41, 0x01] ∧ encode .xwr = some [0x00, 0x04] ∧
    encode (.cursorShift true true) = some [0x1C] ∧ encode .initializeOp = none := by decide

/-! ## The primitive requests: V1 to V29 -/

/-- V2, V1. -/
theorem test_xwr : traceOf .xwr (up true (oks 1)) = some [x 0x08, .rsp .ok] ∧
    traceOf .xwr (up false (oks 1)) = some [x 0x00, .rsp .ok] := by decide

/-- V3, V4. -/
theorem test_blw :
    (after (exec (.blw true) (up false (oks 1)))).map (fun t => (t.trace, t.bl)) = some ([x 0x08, .rsp .ok], true) ∧
    (after (exec (.blw false) (up true (oks 1)))).map (fun t => (t.trace, t.bl)) = some ([x 0x00, .rsp .ok], false) := by
  decide

/-- V7: the new value of `BL` is kept. -/
theorem test_blw_fails :
    (after (exec (.blw true) (up false (failing 0)))).map (fun t => (t.trace, t.bl)) =
      some ([.xfail 0x27 0x08 7, .rsp (.xferFail 7)], true) := by decide

/-- V9. -/
theorem test_nib : traceOf (.nib 0x3) (up true (oks 3)) = some [x 0x38, x 0x3C, w 1, x 0x38, w 50, .rsp .ok] := by decide

/-- V15. -/
theorem test_nib_third_transfer_fails :
    traceOf (.nib 0x3) (up false (failing 2)) =
      some [x 0x30, x 0x34, w 1, .xfail 0x27 0x30 7, .rsp (.xferFail 7)] := by decide

/-- R97's example. -/
theorem test_cmd :
    traceOf (.cmd 0x01) (up true (oks 6)) =
      some [x 0x08, x 0x0C, w 1, x 0x08, w 50, x 0x18, x 0x1C, w 1, x 0x18, w 50, .rsp .ok] := by decide

/-- V23: nibble order, no backlight. -/
theorem test_cmd_nibble_order :
    bytesOf (.cmd 0x28) (up false (oks 6)) = some [0x20, 0x24, 0x20, 0x80, 0x84, 0x80] := by decide

/-- V22. -/
theorem test_dat : bytesOf (.dat 0xA5) (up true (oks 6)) = some [0xA9, 0xAD, 0xA9, 0x59, 0x5D, 0x59] := by decide

/-- Section 2.3, failure at transfer 6 of `DAT 0x41`. -/
theorem test_dat_last_transfer_fails :
    traceOf (.dat 0x41) (up true (failing 5)) =
      some [x 0x49, x 0x4D, w 1, x 0x49, w 50, x 0x19, x 0x1D, w 1, .xfail 0x27 0x19 7, .rsp (.xferFail 7)] := by decide

/-! ## The command bytes, each against the bytes of its CMD (V23 to V27, section 2.6) -/

theorem test_clearDisplay : bytesOf .clearDisplay (up true (oks 6)) = some [0x08, 0x0C, 0x08, 0x18, 0x1C, 0x18] := by decide
theorem test_returnHome : bytesOf .returnHome (up true (oks 6)) = some [0x08, 0x0C, 0x08, 0x28, 0x2C, 0x28] := by decide
theorem test_entryModeSet :
    bytesOf (.entryModeSet true false) (up true (oks 6)) = some [0x08, 0x0C, 0x08, 0x68, 0x6C, 0x68] := by decide
theorem test_displayControl :
    bytesOf (.displayControl true false true) (up true (oks 6)) = some [0x08, 0x0C, 0x08, 0xD8, 0xDC, 0xD8] := by decide
theorem test_cursorShift :
    bytesOf (.cursorShift true true) (up true (oks 6)) = some [0x18, 0x1C, 0x18, 0xC8, 0xCC, 0xC8] := by decide
theorem test_functionSet :
    bytesOf (.functionSet false true false) (up true (oks 6)) = some [0x28, 0x2C, 0x28, 0x88, 0x8C, 0x88] := by decide
theorem test_setCgramAddr :
    bytesOf (.setCgramAddr 0x08) (up true (oks 6)) = some [0x48, 0x4C, 0x48, 0x88, 0x8C, 0x88] := by decide
theorem test_setDdramAddr :
    bytesOf (.setDdramAddr 0x40) (up true (oks 6)) = some [0xC8, 0xCC, 0xC8, 0x08, 0x0C, 0x08] := by decide

/-! ## The pseudo-operations -/

set_option maxRecDepth 4000 in
/-- The bytes and the end state of P1. -/
theorem test_boot :
    (after (exec .initializeOp { State.resetWith board ResetDraw.named 0xFF with answers := oks 43 })).map
      (fun t => (t.trace.filterMap fun e => match e with | .xfer _ b => some b | _ => none)) =
      some ([0x00, 0x30, 0x34, 0x30, 0x30, 0x34, 0x30, 0x30, 0x34, 0x30, 0x20, 0x24, 0x20] ++
        [0x20, 0x24, 0x20, 0x80, 0x84, 0x80, 0x00, 0x04, 0x00, 0xC0, 0xC4, 0xC0] ++
        [0x00, 0x04, 0x00, 0x10, 0x14, 0x10, 0x00, 0x04, 0x00, 0x60, 0x64, 0x60] ++
        [0x00, 0x04, 0x00, 0x20, 0x24, 0x20]) ∧
    (after (exec .initializeOp { State.resetWith board ResetDraw.named 0xFF with answers := oks 43 })).map
      (fun t => (t.fs, t.dc, t.em, t.init, t.expOut)) =
      some (⟨false, true, false⟩, ⟨true, false, false⟩, ⟨true, false⟩, true, 0x20) := by decide

/-- R121's example. -/
theorem test_clear :
    traceOf .clear (up true (oks 6)) =
      some [x 0x08, x 0x0C, w 1, x 0x08, w 50, x 0x18, x 0x1C, w 1, x 0x18, w 50, .rsp .ok, w 2000] := by decide

/-- R122's example. -/
theorem test_home :
    traceOf .home (up true (oks 6)) =
      some [x 0x08, x 0x0C, w 1, x 0x08, w 50, x 0x28, x 0x2C, w 1, x 0x28, w 50, .rsp .ok, w 2000] := by decide

/-- V34, and V31: row 2 of 2 is not clamped, row 3 is. -/
theorem test_setCursor :
    bytesOf (.setCursor 0 0) (up true (oks 6)) = some [0x88, 0x8C, 0x88, 0x08, 0x0C, 0x08] ∧
    bytesOf (.setCursor 5 2) (up false (oks 6)) = some [0x90, 0x94, 0x90, 0x90, 0x94, 0x90] ∧
    bytesOf (.setCursor 5 3) (up false (oks 6)) = some [0xC0, 0xC4, 0xC0, 0x50, 0x54, 0x50] := by decide

/-- V37, V33. -/
theorem test_setCursor_refused :
    after (exec (.setCursor 64 1) (up true (oks 6))) = none ∧
    after (exec (.setCursor 5 4) { up true (oks 6) with cfg := { board with rows := 4 } }) = none := by decide

/-- The state of the row above V50 to V62, with flag groups `dc` and `em`. -/
def chain (d c b i s : Bool) : State := { up true (oks 6) with dc := ⟨d, c, b⟩, em := ⟨i, s⟩ }

/-- Flag groups and last nibble of the command byte, as a row of section 2.6 gives them. -/
def flagsOf (i : Instr) (s : State) : Option (DisplayControl × EntryMode × Byte) :=
  (after (exec i s)).map fun t => (t.dc, t.em, t.expOut)

/-- V53. -/
theorem test_noDisplay :
    flagsOf .noDisplay (chain true false true true false) = some (⟨false, false, true⟩, ⟨true, false⟩, 0x98) := by decide
/-- V54. -/
theorem test_display :
    flagsOf .display (chain false false true true false) = some (⟨true, false, true⟩, ⟨true, false⟩, 0xD8) := by decide
/-- V52. -/
theorem test_noCursor :
    flagsOf .noCursor (chain true true true true false) = some (⟨true, false, true⟩, ⟨true, false⟩, 0xD8) := by decide
/-- V50. -/
theorem test_cursor :
    flagsOf .cursor (chain true false false true false) = some (⟨true, true, false⟩, ⟨true, false⟩, 0xE8) := by decide
/-- V55. -/
theorem test_noBlink :
    flagsOf .noBlink (chain true false true true false) = some (⟨true, false, false⟩, ⟨true, false⟩, 0xC8) := by decide
/-- V51. -/
theorem test_blink :
    flagsOf .blink (chain true true false true false) = some (⟨true, true, true⟩, ⟨true, false⟩, 0xF8) := by decide
/-- V61. -/
theorem test_scrollDisplayLeft :
    bytesOf .scrollDisplayLeft (up true (oks 6)) = some [0x18, 0x1C, 0x18, 0x88, 0x8C, 0x88] := by decide
/-- V62. -/
theorem test_scrollDisplayRight :
    bytesOf .scrollDisplayRight (up true (oks 6)) = some [0x18, 0x1C, 0x18, 0xC8, 0xCC, 0xC8] := by decide
/-- V58. -/
theorem test_leftToRight :
    flagsOf .leftToRight (chain true false false false true) = some (⟨true, false, false⟩, ⟨true, true⟩, 0x78) := by decide
/-- V56. -/
theorem test_rightToLeft :
    flagsOf .rightToLeft (chain true false false true false) = some (⟨true, false, false⟩, ⟨false, false⟩, 0x48) := by decide
/-- V57. -/
theorem test_autoscroll :
    flagsOf .autoscroll (chain true false false false false) = some (⟨true, false, false⟩, ⟨false, true⟩, 0x58) := by decide
/-- V59. -/
theorem test_noAutoscroll :
    flagsOf .noAutoscroll (chain true false false true true) = some (⟨true, false, false⟩, ⟨true, false⟩, 0x68) := by decide

/-- V81, V80: location 9 wraps to 1. -/
theorem test_createChar :
    bytesOf (.createChar 9 [0x0E, 0x11]) (up false (oks 18)) =
      some ([0x40, 0x44, 0x40, 0x80, 0x84, 0x80] ++ [0x01, 0x05, 0x01, 0xE1, 0xE5, 0xE1] ++
        [0x11, 0x15, 0x11, 0x11, 0x15, 0x11]) := by decide

/-- V82. -/
theorem test_createChar_empty :
    bytesOf (.createChar 3 []) (up false (oks 6)) = some [0x50, 0x54, 0x50, 0x80, 0x84, 0x80] := by decide

/-- R137, R138. -/
theorem test_noBacklight : flagsOf .noBacklight (up true (oks 1)) = some (⟨true, false, false⟩, ⟨true, false⟩, 0x00) ∧
    (after (exec .noBacklight (up true (oks 1)))).map State.bl = some false := by decide
theorem test_backlight : flagsOf .backlight (up false (oks 1)) = some (⟨true, false, false⟩, ⟨true, false⟩, 0x08) ∧
    (after (exec .backlight (up false (oks 1)))).map State.bl = some true := by decide

/-- V85, V84. -/
theorem test_print :
    bytesOf (.print [0x48, 0x69]) (up true (oks 12)) =
      some [0x49, 0x4D, 0x49, 0x89, 0x8D, 0x89, 0x69, 0x6D, 0x69, 0x99, 0x9D, 0x99] ∧
    traceOf (.print []) (up true []) = some [] := by decide

/-- V87: transfer 8 of 12 fails, and `INIT` is cleared. -/
theorem test_print_fails :
    (after (exec (.print [0x41, 0x42]) (up false (failing 7)))).map (fun t => (t.trace, t.init)) =
      some ([x 0x41, x 0x45, w 1, x 0x41, w 50, x 0x11, x 0x15, w 1, x 0x11, w 50, .rsp .ok, x 0x41,
        .xfail 0x27 0x45 7, .rsp (.xferFail 7)], false) := by decide

/-- R98's example, by R140. -/
theorem test_write :
    traceOf (.write 0x41) (up true (oks 6)) =
      some [x 0x49, x 0x4D, w 1, x 0x49, w 50, x 0x19, x 0x1D, w 1, x 0x19, w 50, .rsp .ok] := by decide

/-- P4: the field stays written, `INIT` is cleared, the expander holds 0x08 or 0xE8, the program stops. -/
theorem test_cursor_fails_at_transfer_4 :
    (after (exec .cursor { up true (failing 3) with program := [.call (.print [0x41])] })).map
      (fun t => (t.trace, t.dc, t.init, t.expOut, t.program)) =
      some ([x 0x08, x 0x0C, w 1, x 0x08, w 50, .xfail 0x27 0xE8 7, .rsp (.xferFail 7)], ⟨true, true, false⟩, false, 0x08,
        []) := by decide

/-! ## The step -/

/-- V43: an illegal BLW leaves `BL` alone. -/
theorem test_step_illegal_word :
    (after (step { up true (oks 9) with program := [.word 0b01100000010, .word 0b10000000000] })).map
      (fun t => (t.trace, t.bl, t.busy, t.answers.length, t.program)) =
      some ([.rsp .illegalReq], true, false, 9, []) := by decide

/-- A request waits for the master, and goes on when it answers. -/
theorem test_step_waits_and_goes_on :
    (after (exec (.nib 0x3) (up false (oks 2)))).map (fun t => (t.trace, t.busy, t.phase)) =
      some ([x 0x30, x 0x34, w 1], true, 3) ∧
    ((after (exec (.nib 0x3) (up false (oks 2)))).bind
      fun t => (after (step { t with answers := oks 1 })).map State.trace) =
      some [x 0x30, x 0x34, w 1, x 0x30, w 50, .rsp .ok] := by decide

/-- R36 after a reset in the middle of a request (R182). -/
theorem test_step_reset :
    ((after (exec (.nib 0x3) (up true (oks 2)))).bind
      fun t => (after (step { t with rst := .asserted { ResetDraw.named with latched := true } })).map
        fun u => (u.bl, u.busy, u.phase, u.expOut, u.trace)) =
      some (false, false, 0, 0x38, [x 0x38, x 0x3C, w 1]) := by decide

/-- R182: at the micro grain a reset lands in the final wait of a NIB, and its response is dropped. -/
theorem test_reset_in_the_final_wait :
    ((after (exec (.nib 0x3) { up true (oks 3) with grain := .micro })).bind fun t => (stepsTo 4 t).bind
      fun u => (after (step { u with rst := .asserted ResetDraw.named })).map fun v => (u.phase, v.busy, v.trace)) =
      some (4, false, [x 0x38, x 0x3C, w 1, x 0x38]) := by decide

/-- R182: a reset lands between the command of `clear()` and its wait, and the wait is not made. -/
theorem test_reset_between_the_items_of_a_routine :
    ((after (exec .clear { up true (oks 6) with grain := .micro })).bind fun t => (stepsTo 11 t).bind
      fun u => (after (step { u with rst := .asserted ResetDraw.named })).map
        fun v => (u.busy, v.host, v.init, v.trace == u.trace, v.trace.length)) =
      some (false, .direct, false, true, 11) := by decide

/-- D12, D14: a request the host issues by itself fails, and `INIT` is cleared. -/
theorem test_raw_failure_clears_init :
    (after (exec .xwr (up true (failing 0)))).map State.init = some false := by decide

set_option maxRecDepth 4000 in
/-- R120 in the boot routine: what each failure leaves of `FS`, `DC` and `EM`, from registers of ones. -/
theorem test_boot_failure_keeps_what_is_written :
    [12, 13, 18, 19, 30, 31].map (fun k =>
      (after (exec .initializeOp { up false (failing k) with
        dc := ⟨true, true, true⟩, em := ⟨false, true⟩, fs := ⟨true, true, true⟩ })).map
        fun t => (t.fs.dl, t.dc.c, t.em.s, t.init)) =
      [some (true, true, true, false), some (false, true, true, false), some (false, true, true, false),
        some (false, false, true, false), some (false, false, true, false), some (false, false, false, false)] := by
  decide

/-! ## The host's moves: R187, R188, R190, R193 -/

/-- The handshake of R188 written out by hand, with the three waits `a`, `b` and `c`. -/
def handshake (a b c : Micros) : List HostItem :=
  [.word 0x203, .hwait a, .word 0x203, .hwait b, .word 0x203, .hwait c, .word 0x202]

theorem test_host_handshake_waits :
    (up true []).hostDuties (handshake 4000 4000 150) = true ∧
    (up true []).hostDuties (handshake 4000 4000 149) = false ∧
    (up true []).hostDuties (handshake 4000 150 150) = false ∧
    (up true []).hostDuties (handshake 4000 4000 150 ++ handshake 4000 4000 150) = true ∧
    (up true []).hostDuties (handshake 4000 4000 150 ++ handshake 150 150 150) = false := by decide

/-- Slow commands, a longer wait and a wait in two parts. -/
theorem test_host_slow_commands :
    (up true []).hostDuties [.command 0x01, .hwait 1500, .hwait 500, .word 0x141] = true ∧
    (up true []).hostDuties [.word 0x002, .word 0x141] = false ∧ (up true []).hostDuties [.call (.cmd 0x01)] = false ∧
    (up true []).hostDuties [.call .clear, .word 0x141] = true := by decide

/-- No move sends FUNCTIONSET, in whichever form it is presented. -/
theorem test_host_function_set :
    (up true []).present [.command 0x28] = none ∧ (up true []).present [.word 0x028] = none ∧
    (up true []).present [.call (.functionSet false true false)] = none ∧
    (up true []).present [.call .initializeOp] ≠ none := by decide

/-- The boot routine first, after any wait; and again after a failure or a reset. -/
theorem test_host_boots_first :
    State.reset.present [.hwait 50000, .call .initializeOp, .word 0x141] ≠ none ∧
    State.reset.present [.word 0x141] = none ∧
    ((after (exec .xwr (up true (failing 0)))).bind fun t => t.present [.word 0x141]) = none ∧
    ((after (step ((up true []).askReset ResetDraw.named))).bind fun t => t.present [.word 0x141]) = none ∧
    ((after (step ((up true []).askReset ResetDraw.named))).bind fun t => t.present [.call .initializeOp]) ≠ none := by
  decide

/-- R182, R197: nothing is presented while a reset is asked for, and the reset drops what was presented before. -/
theorem test_host_reset_drops_the_program :
    ((up true []).askReset ResetDraw.named).present [.word 0x141] = none ∧
    ((after (step (State.askReset { up true [] with program := [.word 0x141] } ResetDraw.named))).map State.program) =
      some [] := by decide

/-! ## Witnesses: a state and operands that meet the hypotheses of each statement -/

/-- The machine of these tests when idle meets the invariant. -/
theorem up_inv (bl : Bool) (answers : List Answer) : (up bl answers).Inv where
  cfgWf := (by decide : board.wf = true)
  idle _ := rfl
  inside h := by cases h
  mode h := by cases h
  routine _ _ h := by cases h

/-- The machine waiting at the third transfer of `NIB 0x3`, for a host that issues the request itself. -/
def waiting : State :=
  { up true [] with latchV := 0x03, seq := .nibble, phase := 3, busy := true, trace := [x 0x38, x 0x3C, w 1] }

theorem waiting_inv : waiting.Inv where
  cfgWf := by decide
  idle h := by cases h
  inside _ := by decide
  mode _ := .inl rfl
  routine _ _ h := by cases h

/-- Both clauses: one word of each kind of R63, a legal neighbour of each, and a state that presents an illegal one. -/
theorem witness_IllegalWordsAreRejected :
    (∃ e, decodeWord 0b10100000000 = .error e) ∧ (∃ e, decodeWord 0b11111111111 = .error e) ∧
    (∃ e, decodeWord 0b01000010000 = .error e) ∧ decodeWord 0b01000001111 = .ok (.nib 0xF) ∧
    (∃ e, decodeWord 0b01100000010 = .error e) ∧ decodeWord 0b01100000001 = .ok (.blw true) ∧
    (∃ e, decodeWord 0b10000000001 = .error e) ∧
    (∃ s : State, s.Inv ∧ s.busy = false ∧ s.host = .direct ∧ s.rst = .released ∧
    s.program = .word 0b10000000001 :: [] ∧
      decodeWord 0b10000000001 = .error .xwrReservedBits) :=
  ⟨⟨_, rfl⟩, ⟨_, rfl⟩, ⟨_, rfl⟩, by decide, ⟨_, rfl⟩, by decide, ⟨_, rfl⟩,
    { up true [] with program := [.word 0b10000000001] },
    { cfgWf := (by decide : board.wf = true)
      idle := fun _ => rfl
      inside := (fun h => by cases h)
      mode := (fun h => by cases h)
      routine := (fun _ _ h => by cases h) }, rfl, rfl, rfl, rfl, by decide⟩

theorem witness_NibbleAssemblyOfTheDefaultMap : board.pins = PinMap.standard ∧ PinMap.standard.pData = 0xF0 := by decide

/-- The five clauses. -/
theorem witness_StepRunsTheFrontItem :
    (up true []).busy = false ∧ (up true []).host = .direct ∧ (up true []).rst = .released ∧
    decodeWord 0b01000000011 = .ok (.nib 0x3) ∧
    decodeCommand board.cmd 0x80 = .ok (.setDdramAddr 0) ∧
    decodeCommand board.cmd 0x00 = .error .noCommandRow ∧
    ∀ item, ({ up true [] with program := [item] } : State).program = item :: [] :=
  ⟨by decide, by decide, by decide, by decide, by decide, by decide, fun _ => rfl⟩

theorem witness_IdleBlockDoesNothing :
    (up true []).busy = false ∧ (up true []).host = .direct ∧ (up true []).rst = .released ∧
    (up true []).program = [] := by
  decide

/-- A command byte at its largest, and request words of 11 and 16 bits. -/
theorem witness_PlacedTableWordRunsNext :
    (up true []).cfg.cmd = CmdSet.standard ∧ decodeTableWord 8 0xFF = some (.setDdramAddr 0x7F) ∧ 0xFF < 2 ^ 8 ∧
    decodeTableWord 11 0x400 = some .xwr ∧ 0x400 < 2 ^ 11 ∧ decodeTableWord 16 0x1FF = some (.dat 0xFF) := by decide

/-- The idle clause, and the two busy ones: at a transfer, and at the final wait. -/
theorem witness_ResetDropsTheRequestInProgress :
    ({ up true [] with rst := .asserted ResetDraw.named } : State).rst = .asserted ResetDraw.named ∧
    (up true []).busy = false ∧ waiting.busy = true ∧ waiting.remaining = .transfer 0x30 :: [.wait 50] ∧
    ({ waiting with phase := 4 } : State).remaining = .wait 50 :: [] := by decide

theorem witness_UnansweredBlockStaysBusy :
    waiting.rst = .released ∧ waiting.busy = true ∧ waiting.remaining = .transfer 0x30 :: [.wait 50] ∧
    waiting.answers = [] := by decide

/-- A failed byte that reached the expander, and one that did not. -/
theorem witness_TransferFailureIsTaken :
    waiting.rst = .released ∧ waiting.busy = true ∧ waiting.remaining = .transfer 0x30 :: [.wait 50] ∧
    ({ waiting with answers := [.fail 7 true] } : State).answers = .fail 7 true :: [] ∧
    ({ waiting with answers := failing 0 } : State).answers = .fail 7 false :: [] ∧
    0x38 = merge waiting.cfg.pins waiting.bl 0x30 := by decide

/-- A busy block that goes on, and one whose transfer fails. -/
theorem witness_BusyBlockAcceptsNothing :
    (∃ t, waiting.Inv ∧ waiting.rst = .released ∧ waiting.busy = true ∧ step waiting = .next t) ∧
    ∃ t, ({ waiting with answers := failing 0 } : State).Inv ∧ step { waiting with answers := failing 0 } = .next t :=
  ⟨⟨_, waiting_inv, rfl, rfl, rfl⟩, _, ⟨waiting_inv.1, waiting_inv.2, waiting_inv.3, waiting_inv.4, waiting_inv.5⟩, rfl⟩

/-- XWR and BLW, also `backlight()` and `noBacklight()`: the transfer completes, or fails. -/
theorem witness_XwrWritesTheBacklightByte :
    (∀ bl a, (up bl a).ready = true ∧ (up bl a).grain = .whole) ∧ answersOk 1 [.ok] (up true (oks 2)) ∧
    answersFail 0 7 true [] (up true [.fail 7 true]) :=
  ⟨fun _ _ => ⟨rfl, rfl⟩, rfl, rfl⟩

theorem witness_BlwSetsTheBacklight :
    (up false (oks 1)).ready = true ∧ (up false (oks 1)).grain = .whole ∧ answersOk 1 [] (up false (oks 1)) ∧
    answersFail 0 7 false [] (up false (failing 0)) ∧
    (0xFE : Byte).extractLsb' 1 7 ≠ 0 ∧ (0x02 : Byte).extractLsb' 1 7 ≠ 0 :=
  ⟨rfl, rfl, rfl, rfl, by decide, by decide⟩

/-- The first and the last transfer. -/
theorem witness_NibWritesOneNibble :
    (up true (oks 3)).ready = true ∧ (up true (oks 3)).grain = .whole ∧ board.pins.wf = true ∧
    answersOk 3 [] (up true (oks 3)) ∧
    answersFail 0 7 false [] (up true (failing 0)) ∧ answersFail 2 7 false [] (up true (failing 2)) ∧
    (0x10 : Byte).extractLsb' 4 4 ≠ 0 :=
  ⟨rfl, rfl, by decide, rfl, rfl, rfl, by decide⟩

/-- The hypotheses that every operation made of one CMD or DAT shares: the first and the last transfer fail, or none. -/
theorem witness_sixTransfers :
    (∀ bl a, (up bl a).ready = true ∧ (up bl a).grain = .whole ∧ (up bl a).cfg.pins.wf = true ∧ (up bl a).phase = 0) ∧
    answersOk 6 [] (up true (oks 6)) ∧
    answersFail 0 7 false [] (up true (failing 0)) ∧
    answersFail 5 7 true [.ok] (up true (oks 5 ++ [.fail 7 true, .ok])) :=
  ⟨fun _ _ => ⟨rfl, rfl, (by decide : board.pins.wf = true), rfl⟩, rfl, rfl, rfl⟩

theorem witness_CmdSendsACommandByte :
    (up true (oks 6)).ready = true ∧ (up true (oks 6)).grain = .whole ∧ board.pins.wf = true ∧
    answersOk 6 [] (up true (oks 6)) ∧
    answersFail 5 7 false [] (up true (failing 5)) := ⟨rfl, rfl, by decide, rfl, rfl⟩

theorem witness_DatSendsADataByte :
    (up false (oks 6)).ready = true ∧ (up false (oks 6)).grain = .whole ∧ board.pins.wf = true ∧
    answersOk 6 [] (up false (oks 6)) ∧
    answersFail 5 7 false [] (up false (failing 5)) := ⟨rfl, rfl, by decide, rfl, rfl⟩

theorem witness_RequestCounts :
    (up true (oks 6)).ready = true ∧ (up true (oks 6)).grain = .whole ∧ (up true (oks 6)).cfg.pins.wf = true ∧
    board.delays = Delays.standard ∧
    answersOk 1 [] (up true (oks 1)) ∧ answersOk 3 [] (up true (oks 3)) ∧ answersOk 6 [] (up true (oks 6)) :=
  ⟨rfl, rfl, by decide, rfl, rfl, rfl, rfl⟩

/-- Each of the three endings. -/
theorem witness_RequestIsThePureEncoder :
    (up true []).ready = true ∧ (up true []).grain = .whole ∧ board.pins.wf = true ∧
    (play (encEvents board true (.nib 3)) (oks 3) 0x20).ending = .completed ∧
    (play (encEvents board true (.nib 3)) (failing 1) 0x20).ending = .failed 7 ∧
    (play (encEvents board true (.nib 3)) (oks 2) 0x20).ending = .waiting := by decide

/-- Two states that differ in everything the trace does not depend on. -/
theorem witness_RequestEventsDependOnBacklightAlone :
    ∃ s₁ s₂ t₁ t₂ : State, s₁.ready = true ∧ s₂.ready = true ∧ s₁.cfg = s₂.cfg ∧ s₁.bl = s₂.bl ∧
      s₁.answers = s₂.answers ∧ s₁.grain = s₂.grain ∧ s₁.latchV ≠ s₂.latchV ∧ s₁.expOut ≠ s₂.expOut ∧ s₁.dc ≠ s₂.dc ∧
      exec (Request.toInstr (.dat 0x41)) s₁ = .next t₁ ∧ exec (Request.toInstr (.dat 0x41)) s₂ = .next t₂ :=
  ⟨up true (oks 6), { up true (oks 6) with latchV := 0x55, expOut := 0xFF, dc := ⟨false, true, true⟩ }, _, _,
    rfl, rfl, rfl, rfl, rfl, rfl, by decide, by decide, by decide, rfl, rfl⟩

/-- A byte of each kind of request, the failed one among them. -/
theorem witness_EmittedBytesHaveTheFivePatterns :
    (up true (oks 6)).ready = true ∧ (up true (oks 6)).cfg.pins = PinMap.standard ∧
    traceOf .xwr (up true (oks 1)) = some [x 0x08, .rsp .ok] ∧
    traceOf (.nib 0x3) (up true (failing 0)) = some [.xfail 0x27 0x38 7, .rsp (.xferFail 7)] ∧
    traceOf (.dat 0x41) (up true (oks 1)) = some [x 0x49] := by decide

/-- At a transfer answered, failed, unanswered; at a wait that is not the last micro-operation, and at the last one. -/
theorem witness_PhaseCountsMicroOperations :
    waiting.busy = true ∧ waiting.remaining = .transfer 0x30 :: [.wait 50] ∧ waiting.answers = [] ∧
    ({ waiting with answers := oks 1 } : State).answers = .ok :: [] ∧
    ({ waiting with answers := failing 0 } : State).answers = .fail 7 false :: [] ∧
    ({ waiting with phase := 2 } : State).remaining = .wait 1 :: [.transfer 0x30, .wait 50] ∧
    ({ waiting with phase := 4 } : State).remaining = .wait 50 :: [] := by decide

theorem witness_RunIsTheMicroStepIterated :
    waiting.busy = true ∧ waiting.phase.toNat < waiting.ops.length ∧
    ({ waiting with phase := 4 } : State).phase.toNat < waiting.ops.length := by decide

/-- The machine of these tests, stepping by micro-operations. -/
def upMicro (bl : Bool) (answers : List Answer) : State := { up bl answers with grain := .micro }

theorem witness_AcceptanceLatchesTheRequest :
    (upMicro true []).ready = true ∧ (upMicro true []).grain = .micro := by decide

/-- A busy block, and the host at each kind of action, at the end of a routine, and at its beginning. -/
theorem witness_MicroGrainStepIsOneMicroOperation :
    (upMicro true []).grain = .micro ∧ (upMicro true []).rst = .released ∧
    ({ waiting with grain := .micro } : State).busy = true ∧ waiting.phase.toNat < waiting.ops.length ∧
    (upMicro true []).busy = false ∧
    (∀ acts, ({ upMicro true [] with host := .routine acts } : State).host = .routine acts) ∧
    (upMicro true []).ready = true ∧ Instr.clear.isPseudo = true ∧
    expansion (upMicro true []) .clear = some [.request (.cmd 0x01), .hwait 2000] :=
  ⟨by decide, by decide, by decide, by decide, by decide, fun _ => rfl, by decide, by decide, by decide⟩

/-- The first micro-operation and the final wait of DAT. -/
theorem witness_EveryPhaseIsReachedAndResetDropsItThere :
    (upMicro true (oks 6)).ready = true ∧ (upMicro true (oks 6)).grain = .micro ∧
    (upMicro true (oks 6)).rst = .released ∧ board.pins.wf = true ∧
    answersOk (transfers (encEvents board true (.dat 0x41))) [] (upMicro true (oks 6)) ∧
    0 < (encEvents board true (.dat 0x41)).length ∧ 9 < (encEvents board true (.dat 0x41)).length :=
  ⟨rfl, rfl, rfl, by decide, rfl, by decide, by decide⟩

/-- An instruction that ends, one that fails, and one that waits. -/
theorem witness_MicroStepsMakeUpTheWholeInstruction :
    (∀ answers, (up true answers).ready = true ∧ (up true answers).grain = .whole ∧ (up true answers).rst = .released) ∧
    (∃ t, exec .clear (up true (oks 6)) = .next t) ∧ (∃ t, exec .clear (up true (failing 3)) = .next t) ∧
    ∃ t, exec .clear (up true (oks 2)) = .next t :=
  ⟨fun _ => ⟨rfl, rfl, rfl⟩, ⟨_, rfl⟩, ⟨_, rfl⟩, _, rfl⟩

/-- The eight rows. -/
theorem witness_CommandBytesGoOutAsCmd :
    encodeCommand board.cmd .clearDisplay = some 0x01 ∧ encodeCommand board.cmd .returnHome = some 0x02 ∧
    encodeCommand board.cmd (.entryModeSet true true) = some 0x07 ∧
    encodeCommand board.cmd (.displayControl true true true) = some 0x0F ∧
    encodeCommand board.cmd (.cursorShift true true) = some 0x1C ∧
    encodeCommand board.cmd (.functionSet true true true) = some 0x3C ∧
    encodeCommand board.cmd (.setCgramAddr 0x3F) = some 0x7F ∧
    encodeCommand board.cmd (.setDdramAddr 0x7F) = some 0xFF ∧
    (up true (oks 6)).ready = true ∧ (up true (oks 6)).grain = .whole ∧
    (up true (oks 6)).cfg.pins.wf = true := by decide

theorem witness_ClearAndHomeCompleteWithTheWait :
    (up true (oks 6)).ready = true ∧ (up true (oks 6)).grain = .whole ∧ (up true (oks 6)).cfg.pins.wf = true ∧
    (Instr.clear, (0x01 : Byte)) ∈ [(Instr.clear, board.cmd.clearDisplay), (.home, board.cmd.returnHome)] ∧
    (Instr.home, (0x02 : Byte)) ∈ [(Instr.clear, board.cmd.clearDisplay), (.home, board.cmd.returnHome)] ∧
    answersOk 6 [] (up true (oks 6)) ∧ answersFail 5 7 false [] (up true (failing 5)) :=
  ⟨rfl, rfl, by decide, by decide, by decide, rfl, rfl⟩

/-- The clamp at `row = ROWS` and above, the largest address, the first address beyond it, and a row outside the table. -/
theorem witness_SetCursorSendsItsAddress :
    (up true (oks 6)).ready = true ∧ (up true (oks 6)).grain = .whole ∧ board.pins.wf = true ∧
    answersOk 6 [] (up true (oks 6)) ∧
    (2 = if 2 > board.rows then board.rows - 1 else 2) ∧ (1 = if 3 > board.rows then board.rows - 1 else 3) ∧
    (board.rowOffset[1]? = some 0x40 ∧ 63 + (0x40 : Byte).toNat ≤ 0x7F ∧
    (0x7F : BitVec 7).toNat = 63 + (0x40 : Byte).toNat) ∧
    0x7F < 64 + (0x40 : Byte).toNat ∧ board.rowOffset[4]? = none :=
  ⟨rfl, rfl, by decide, rfl, by decide, by decide, by decide, by decide, by decide⟩

/-- Each clause where it begins and ends. -/
theorem witness_CursorAddressOfTheDefaultTable :
    board.rowOffset = [0x00, 0x40, 0x14, 0x54] ∧ 1 ≤ board.rows ∧ board.rows ≤ 4 ∧ 0 ≤ board.rows ∧ 2 ≤ board.rows ∧
    3 > board.rows ∧ ({ board with rows := 4 } : Config).rows = 4 := by decide

theorem witness_DisplayControlOperations :
    (up true (oks 6)).ready = true ∧ (up true (oks 6)).grain = .whole ∧ (up true (oks 6)).cfg.pins.wf = true ∧
    (∀ i ∈ [Instr.noDisplay, .display, .noCursor, .cursor, .noBlink, .blink], ∃ v : DisplayControl, (i, v) ∈
      [(Instr.noDisplay, { (up true (oks 6)).dc with d := false }), (.display, { (up true (oks 6)).dc with d := true }),
        (.noCursor, { (up true (oks 6)).dc with c := false }), (.cursor, { (up true (oks 6)).dc with c := true }),
        (.noBlink, { (up true (oks 6)).dc with b := false }), (.blink, { (up true (oks 6)).dc with b := true })]) ∧
    answersOk 6 [] (up true (oks 6)) ∧ answersFail 0 7 false [] (up true (failing 0)) :=
  ⟨rfl, rfl, by decide, by simp, rfl, rfl⟩

theorem witness_ScrollOperations :
    (up true (oks 6)).ready = true ∧ (up true (oks 6)).grain = .whole ∧ board.pins.wf = true ∧
    (board.cmd.cursorShift ||| board.cmd.displayMove = 0x18) ∧
    (board.cmd.cursorShift ||| (board.cmd.displayMove ||| board.cmd.moveRight) = 0x1C) ∧
    answersOk 6 [] (up true (oks 6)) ∧ answersFail 5 7 false [] (up true (failing 5)) :=
  ⟨rfl, rfl, by decide, by decide, by decide, rfl, rfl⟩

theorem witness_EntryModeOperations :
    (up true (oks 6)).ready = true ∧ (up true (oks 6)).grain = .whole ∧ board.pins.wf = true ∧
    (∀ i ∈ [Instr.leftToRight, .rightToLeft, .autoscroll, .noAutoscroll], ∃ v : EntryMode, (i, v) ∈
      [(Instr.leftToRight, { (up true (oks 6)).em with i := true }), (.rightToLeft, { (up true (oks 6)).em with i := false }),
        (.autoscroll, { (up true (oks 6)).em with s := true }), (.noAutoscroll, { (up true (oks 6)).em with s := false })]) ∧
    answersOk 6 [] (up true (oks 6)) ∧ answersFail 5 7 false [] (up true (failing 5)) :=
  ⟨rfl, rfl, by decide, by simp, rfl, rfl⟩

/-- The last location, one that wraps, and bitmaps of no byte and of two. -/
theorem witness_CreateCharSendsAddressAndBitmap :
    (up true (oks 18)).ready = true ∧ (up true (oks 18)).grain = .whole ∧ board.pins.wf = true ∧
    (0x38 : BitVec 6).toNat = 8 * (7 % 8) ∧
    (0x08 : BitVec 6).toNat = 8 * (9 % 8) ∧ answersOk (6 + 6 * ([] : List Byte).length) [] (up true (oks 6)) ∧
    answersOk (6 + 6 * ([0x0E, 0x11] : List Byte).length) [] (up true (oks 18)) ∧
    17 < 6 + 6 * ([0x0E, 0x11] : List Byte).length ∧ answersFail 17 7 false [] (up true (failing 17)) :=
  ⟨rfl, rfl, by decide, by decide, by decide, rfl, rfl, by decide, rfl⟩

theorem witness_BacklightOperations :
    (up true (oks 1)).ready = true ∧ (up true (oks 1)).grain = .whole ∧ answersOk 1 [] (up true (oks 1)) ∧
    answersFail 0 7 true [] (up true [.fail 7 true]) ∧
    (Instr.backlight, true) ∈ [(Instr.noBacklight, false), (Instr.backlight, true)] :=
  ⟨rfl, rfl, rfl, rfl, by decide⟩

/-- No character, two characters, and the first code that does not fit. -/
theorem witness_PrintAndWriteSendData :
    (up true (oks 12)).ready = true ∧ (up true (oks 12)).grain = .whole ∧ (up true (oks 12)).phase = 0 ∧
    board.pins.wf = true ∧
    answersOk (6 * ([] : List Byte).length) [] (up true []) ∧
    answersOk (6 * ([0x48, 0x69] : List Byte).length) [] (up true (oks 12)) ∧ (∃ c ∈ [0x41, 256], 256 ≤ c) ∧
    answersOk (6 * ([0x41] : List Byte).length) [] (up true (oks 6)) ∧
    7 < 6 * ([0x41, 0x42] : List Byte).length ∧ answersFail 7 7 false [] (up true (failing 7)) :=
  ⟨rfl, rfl, rfl, by decide, rfl, rfl, by decide, rfl, by decide, rfl⟩

/-- The last transfer fails, or one on either side of the three places where a flag group is written. -/
theorem witness_BootRoutineCompletes :
    (up false (oks 43)).ready = true ∧ (up false (oks 43)).grain = .whole ∧ board.pins.wf = true ∧
    board.delays = Delays.standard ∧
    answersOk 43 [] (up false (oks 43)) ∧ answersFail 42 7 true [] (up false (oks 42 ++ [.fail 7 true])) ∧
    (∀ k, answersFail k 7 false [] (up false (failing k))) ∧
    [12, 13, 18, 19, 30, 31].all (fun k => decide (k < 43)) = true :=
  ⟨rfl, rfl, by decide, rfl, rfl, rfl, fun _ => rfl, by decide⟩

/-- A pseudo-operation that meets a failure (P4). -/
theorem witness_PseudoOperationFailureStopsIt :
    ∃ (t : State) (evs : List Event), (up true (failing 3)).ready = true ∧ board.pins.wf = true ∧
      Instr.cursor.isPseudo = true ∧ exec .cursor (up true (failing 3)) = .next t ∧
      t.trace = (up true (failing 3)).trace ++ evs ∧ .rsp (.xferFail 7) ∈ evs :=
  ⟨_, [x 0x08, x 0x0C, w 1, x 0x08, w 50, .xfail 0x27 0xE8 7, .rsp (.xferFail 7)], rfl, by decide, by decide, rfl,
    by decide, by decide⟩

/-- With a failure, and without one; a step of a busy block that fails; an illegal word. -/
theorem witness_FailureStopsTheHostProgram :
    (∃ t : State, (up true (failing 3)).ready = true ∧ board.pins.wf = true ∧
    exec .cursor (up true (failing 3)) = .next t ∧
      t.trace = (up true (failing 3)).trace ++
        [x 0x08, x 0x0C, w 1, x 0x08, w 50, .xfail 0x27 0xE8 7, .rsp (.xferFail 7)]) ∧
    (∃ t : State, exec .xwr (up true (oks 1)) = .next t ∧ t.trace = (up true (oks 1)).trace ++ [x 0x08, .rsp .ok]) ∧
    (∃ t : State, ({ waiting with answers := failing 0 } : State).Inv ∧ waiting.rst = .released ∧
      waiting.ready = false ∧ step { waiting with answers := failing 0 } = .next t ∧
      t.trace = waiting.trace ++ [.xfail 0x27 0x38 7, .rsp (.xferFail 7)]) ∧
    (up true []).ready = true ∧ decodeWord 0b10000000001 = .error .xwrReservedBits ∧
    ∀ item, ({ up true [] with program := [item] } : State).program = item :: [] :=
  ⟨⟨_, rfl, by decide, rfl, by decide⟩, ⟨_, rfl, by decide⟩,
    ⟨_, ⟨waiting_inv.1, waiting_inv.2, waiting_inv.3, waiting_inv.4, waiting_inv.5⟩, rfl, rfl, rfl, by decide⟩,
    rfl, by decide, fun _ => rfl⟩

theorem witness_EveryInstructionIsItsExpansion :
    (up true []).ready = true ∧ (up true []).grain = .whole ∧ board.pins.wf = true ∧
    expansion (up true []) .clear = some [.request (.cmd 0x01), .hwait 2000] := by decide

/-- An instruction inside its domain, and one outside. -/
theorem witness_RefusedExactlyOutsideTheDomain :
    (up true []).ready = true ∧ expansion (up true []) (.setCursor 64 1) = none ∧
    expansion (up true []) (.setCursor 63 1) ≠ none := by decide

/-- A field that is set and a field that is clear. -/
theorem witness_DoubleToggleRestoresTheGroup :
    (up true (oks 12)).ready = true ∧ (up true (oks 12)).grain = .whole ∧ board.pins.wf = true ∧
    answersOk 12 [] (up true (oks 12)) ∧
    (0x0C : Byte) = dcByte board.cmd (up true (oks 12)).dc ∧
    (Instr.noDisplay, Instr.display) ∈
      [if (up true (oks 12)).dc.d then (Instr.noDisplay, Instr.display) else (.display, .noDisplay),
        if (up true (oks 12)).dc.c then (.noCursor, .cursor) else (.cursor, .noCursor),
        if (up true (oks 12)).dc.b then (.noBlink, .blink) else (.blink, .noBlink)] ∧
    (0x06 : Byte) = emByte board.cmd (up true (oks 12)).em ∧
    (Instr.autoscroll, Instr.noAutoscroll) ∈
      [if (up true (oks 12)).em.i then (Instr.rightToLeft, Instr.leftToRight) else (.leftToRight, .rightToLeft),
        if (up true (oks 12)).em.s then (.noAutoscroll, .autoscroll) else (.autoscroll, .noAutoscroll)] :=
  ⟨rfl, rfl, by decide, rfl, by decide, by decide, by decide, by decide⟩

/-- A busy state, an idle one, and one inside a routine at the micro grain, each with a next state. -/
theorem witness_StepKeepsTheInvariant :
    (∃ t, waiting.Inv ∧ step waiting = .next t) ∧ (∃ t, (up true (oks 1)).Inv ∧ step (up true (oks 1)) = .next t) ∧
    ∃ t, ({ upMicro true [] with host := .routine [.request (.blw true)] } : State).Inv ∧
      step { upMicro true [] with host := .routine [.request (.blw true)] } = .next t :=
  ⟨⟨_, waiting_inv, rfl⟩, ⟨_, up_inv _ _, rfl⟩, _,
    { cfgWf := (by decide : board.wf = true)
      idle := fun _ => rfl
      inside := (fun h => by cases h)
      mode := (fun h => by cases h)
      routine := (fun _ _ h => by cases h; exact List.not_mem_nil) }, rfl⟩

theorem witness_InvariantRulesOutFaults : waiting.Inv := waiting_inv

theorem witness_StepKeepsTheBusRule :
    ∃ t, waiting.Inv ∧ (∀ e ∈ waiting.trace, e.onBus waiting.cfg) ∧ step waiting = .next t :=
  ⟨_, waiting_inv, by simp [waiting, x, w, Event.onBus, up, board, Config.standard, PinMap.standard, State.resetWith], rfl⟩

theorem witness_EveryTransferCarriesTheBacklight :
    ∃ t, ({ waiting with answers := oks 1 } : State).Inv ∧ step { waiting with answers := oks 1 } = .next t :=
  ⟨_, ⟨waiting_inv.1, waiting_inv.2, waiting_inv.3, waiting_inv.4, waiting_inv.5⟩, rfl⟩

theorem witness_ParametersAndPastEventsStay : ∃ t, step waiting = .next t := ⟨_, rfl⟩

/-- Each of the four ways `BL` changes. -/
theorem witness_OnlyBlwWritesTheBacklight :
    ((after (exec (.blw true) (up false (oks 1)))).map State.bl ≠ some false) ∧
    ((after (exec (.blw false) (up true (oks 1)))).map State.bl ≠ some true) ∧
    ((after (exec .backlight (up false (oks 1)))).map State.bl ≠ some false) ∧
    ((after (exec .noBacklight (up true (oks 1)))).map State.bl ≠ some true) := by decide

theorem witness_ShadowStateFrame : ∃ t, exec (.write 0x41) (up true (oks 6)) = .next t := ⟨_, rfl⟩

theorem witness_EnableLowWhenIdleWithoutFailure :
    ∃ (t : State) (evs : List Event), (up true (oks 3)).ready = true ∧ board.pins.wf = true ∧
      (up true (oks 3)).expOut &&& board.pins.pEn = 0 ∧ exec (.nib 0x3) (up true (oks 3)) = .next t ∧ t.busy = false ∧
      t.trace = (up true (oks 3)).trace ++ evs ∧ ∀ e, .rsp (.xferFail e) ∉ evs :=
  ⟨_, [x 0x38, x 0x3C, w 1, x 0x38, w 50, .rsp .ok], rfl, by decide, by decide, rfl, by decide, by decide,
    by simp [x, w]⟩

theorem witness_WaitingForTheMasterChangesNothing :
    ∃ t : State, (up true (oks 2)).ready = true ∧ (up true (oks 2)).grain = .whole ∧
    (up true (oks 2)).rst = .released ∧ (up true (oks 2)).answers = oks 2 ∧
      exec .clear (up true (oks 2)) = .next t ∧ t.busy = true :=
  ⟨_, rfl, rfl, rfl, rfl, rfl, by decide⟩

/-- Each clause: a step that clears `INIT`, a step with `INIT` 0, a move, and the boot routine presented after a wait. -/
theorem witness_HostBootsFirstAlongEveryRun :
    (∃ t, State.BootFirst { up true (failing 0) with program := [.call .xwr, .call .xwr] } ∧
      step { up true (failing 0) with program := [.call .xwr, .call .xwr] } = .next t ∧ t.init = false ∧ t.program = []) ∧
    (∃ t, State.BootFirst { State.reset with program := [.hwait 50000, .call .initializeOp] } ∧
      step { State.reset with program := [.hwait 50000, .call .initializeOp] } = .next t ∧ t.BootFirst) ∧
    (∃ t, State.reset.present [.call .initializeOp] = some t) ∧
    State.BootFirst { State.reset with program := [.call .initializeOp] } ∧ State.reset.ready = true ∧
    State.reset.rst = .released ∧ State.reset.init = false :=
  ⟨⟨_, fun _ => rfl, rfl, rfl, rfl⟩, ⟨_, fun _ => rfl, rfl, fun _ => rfl⟩, ⟨_, rfl⟩, fun _ => rfl, rfl, rfl, rfl⟩

/-- The boot routine itself, the command byte, and CMD. -/
theorem witness_NoOtherExpansionHoldsAFunctionSet :
    board.cmd = CmdSet.standard ∧
    ((expansion (up true []) .initializeOp).getD []).contains (.request (.cmd 0x28)) = true ∧
    expansion (up true []) (.functionSet false true false) = some [.request (.cmd 0x28)] ∧
    expansion (up true []) (.cmd 0x28) = some [.request (.cmd 0x28)] ∧
    isFunctionSet CmdSet.standard 0x28 = true := by decide

end Sys2Proof.Tests
end

namespace Sys2Proof.Machine

open Relation (ReflTransGen)

/-! ## What a step is made of

Every step, at either grain, is a chain of the moves the machine makes at the micro grain (log 1). A property that each
move keeps is therefore kept by every step. -/

/-- One move of the machine: a micro-operation of the block, an action of the host, or a reset. -/
inductive Move : State → State → Prop where
  | reset {s : State} {d : ResetDraw} : s.rst = .asserted d → Move s (blockReset d s)
  /-- One micro-operation of the request in progress (R23). -/
  | block {s : State} : s.busy = true → Move s (microStep s)
  /-- The next action of the pseudo-operation in progress (R120). -/
  | act {s : State} {a : HostAction} {rest : List HostAction} :
      s.busy = false → s.host = .routine (a :: rest) → Move s (startAction a (s.setHost (.routine rest)))
  | leave {s : State} : s.busy = false → s.host = .routine [] → Move s (s.setHost .direct)
  | accept {s : State} (r : Request) : s.ready = true → Move s (s.accept r)
  /-- A pseudo-operation is entered with its expansion (R74). -/
  | enter {s : State} {i : Instr} {acts : List HostAction} :
      s.ready = true → expansion s i = some acts → Move s (s.setHost (.routine acts))
  | reject {s : State} : s.ready = true → Move s (rejectIllegal s)
  | hostWait {s : State} (n : Micros) : s.ready = true → Move s (hostWait n s)
  /-- An item of the program is consumed, or stays presented (R51; log 13). -/
  | setProgram (s : State) (p : List HostItem) : Move s (s.setProgram p)

/-! ### The block -/

theorem State.remaining_ne_nil_iff (s : State) : s.remaining ≠ [] ↔ s.phase.toNat < s.ops.length := by
  simp [State.remaining]

/-- `PHASE` never wraps inside a sequence (R23). -/
theorem State.toNat_phase_succ {s : State} (h : s.phase.toNat < s.ops.length) :
    (s.phase + 1).toNat = s.phase.toNat + 1 := by
  have hlen : s.ops.length ≤ 10 := by rw [s.length_ops]; cases s.seq <;> decide
  bv_omega

/-- A completed micro-operation leaves the rest of the sequence to do, whatever it played. -/
theorem State.remaining_played_succ {s : State} {op : MicroOp} {ops : List MicroOp} (h : s.remaining = op :: ops)
    (p : Played) : (s.played p (s.phase + 1)).remaining = ops := by
  have hin : s.phase.toNat < s.ops.length := s.remaining_ne_nil_iff.mp (by simp [h])
  calc (s.played p (s.phase + 1)).remaining
      = s.ops.drop (s.phase + 1).toNat := rfl
    _ = s.remaining.tail := by rw [State.toNat_phase_succ hin, State.remaining, List.tail_drop]
    _ = ops := by rw [h, List.tail_cons]

theorem runOp_done {op : MicroOp} {s t : State} (h : runOp op s = .done t) : ∃ p, t = s.played p (s.phase + 1) := by
  cases op with
  | wait n =>
    cases h
    exact ⟨⟨[.wait n], s.answers, s.expOut, .completed⟩, rfl⟩
  | transfer d =>
    rcases hans : s.answers with _ | ⟨_ | ⟨e, l⟩, rest⟩ <;> simp only [runOp, expanderWrite, i2cWrite, hans] at h <;>
      cases h
    exact ⟨⟨[.xfer s.cfg.i2cAddr (merge s.cfg.pins s.bl d)], rest, merge s.cfg.pins s.bl d, .completed⟩, rfl⟩

theorem runOp_failed {op : MicroOp} {s t : State} {e : ErrVal} (h : runOp op s = .failed e t) :
    ∃ p, t = s.played p s.phase := by
  cases op with
  | wait n => cases h
  | transfer d =>
    rcases hans : s.answers with _ | ⟨_ | ⟨e', l⟩, rest⟩ <;> simp only [runOp, expanderWrite, i2cWrite, hans] at h <;>
      cases h
    exact ⟨⟨[.xfail s.cfg.i2cAddr (merge s.cfg.pins s.bl d) e], rest,
      if l then merge s.cfg.pins s.bl d else s.expOut, .failed e⟩, rfl⟩

/-- EVERYTHING `microStep` CAN DO, in terms of what it plays: the last micro-operation with its response, one before the
last, a failure, or nothing (R23, R102, R54). -/
theorem microStep_played (s : State) :
    (∃ p, microStep s = (s.played p (s.phase + 1)).respond .ok) ∨
    (∃ p op ops, s.remaining = op :: ops ∧ ops ≠ [] ∧ microStep s = s.played p (s.phase + 1)) ∨
    (∃ p e, microStep s = takeXferFail e (s.played p s.phase)) ∨
    microStep s = s := by
  rcases microStep_cases s with ⟨-, hm⟩ | ⟨op, ops, hrem, ⟨t, hrun, hm⟩ | ⟨e, t, hrun, hm⟩ | ⟨-, hm⟩⟩
  · exact .inr (.inr (.inr hm))
  · obtain ⟨p, rfl⟩ := runOp_done hrun
    by_cases hops : ops = []
    · exact .inl ⟨p, by rw [hm, if_pos hops]⟩
    · exact .inr (.inl ⟨p, op, ops, hrem, hops, by rw [hm, if_neg hops]⟩)
  · obtain ⟨p, rfl⟩ := runOp_failed hrun
    exact .inr (.inr (.inl ⟨p, e, hm⟩))
  · exact .inr (.inr (.inr hm))

/-- The run of a sequence begins with the block's own step, and that is all of it or the rest of the sequence follows. -/
theorem runOps_eq_microStep {s : State} {op : MicroOp} {ops : List MicroOp} (h : s.remaining = op :: ops) :
    runOps (op :: ops) s = microStep s ∨
    (ops ≠ [] ∧ (microStep s).busy = s.busy ∧ (microStep s).remaining = ops ∧
      runOps (op :: ops) s = runOps ops (microStep s)) := by
  cases hrun : runOp op s with
  | done t =>
    by_cases hops : ops = []
    · left; simp [runOps, microStep, h, hrun, hops]
    · right
      have hm : microStep s = t := by simp [microStep, h, hrun, hops]
      obtain ⟨p, rfl⟩ := runOp_done hrun
      rw [hm]
      exact ⟨hops, rfl, State.remaining_played_succ h p, by simp [runOps, hrun]⟩
  | failed e t => left; simp [runOps, microStep, h, hrun]
  | waiting => left; simp [runOps, microStep, h, hrun]

theorem runOps_moves {ops : List MicroOp} {s : State} (hb : s.busy = true) (h : s.remaining = ops) (hne : ops ≠ []) :
    ReflTransGen Move s (runOps ops s) := by
  induction ops generalizing s with
  | nil => exact absurd rfl hne
  | cons op ops ih =>
    rcases runOps_eq_microStep h with hrun | ⟨hops, hbusy, hrem, hrun⟩
    · rw [hrun]; exact .single (.block hb)
    · rw [hrun]; exact .head (.block hb) (ih (hbusy.trans hb) hrem hops)

theorem runBlock_moves {s : State} (hb : s.busy = true) (h : s.phase.toNat < s.ops.length) :
    ReflTransGen Move s (runBlock s) :=
  runOps_moves hb rfl (s.remaining_ne_nil_iff.mpr h)

/-- Acceptance puts `PHASE` inside the sequence of the request (R23, R105). -/
theorem State.accept_inside (s : State) (r : Request) : (s.accept r).phase.toNat < (s.accept r).ops.length := by
  rw [State.length_ops]
  cases r <;> simp [Request.seqKind]

theorem runRequest_moves (r : Request) (s : State) : ReflTransGen Move (s.accept r) (runRequest r s) :=
  runBlock_moves rfl (s.accept_inside r)

/-! ### The host's routine -/

theorem runRequest_host (r : Request) (s : State) :
    (runRequest r s).host = .direct ∨ (runRequest r s).host = s.host :=
  (runOps_frame _ (s.accept r)).2.2.2.2.2.2.2.2.2.1

theorem perform_host (a : HostAction) (s : State) :
    (perform a s).host = .direct ∨ (perform a s).host = s.host := by
  cases a with
  | request r => exact runRequest_host r s
  | _ => exact .inr rfl

theorem perform_moves {s : State} {a : HostAction} {rest : List HostAction} (hb : s.busy = false)
    (hh : s.host = .routine (a :: rest)) : ReflTransGen Move s (perform a (s.setHost (.routine rest))) := by
  cases a with
  | request r => exact .head (.act hb hh) (runRequest_moves r _)
  | _ => exact .single (.act hb hh)

/-- After one action a routine stops, or goes on idle with the rest of it. -/
theorem runRoutine_cons_cases (a : HostAction) (rest : List HostAction) (s : State) :
    runRoutine (a :: rest) s = perform a (s.setHost (.routine rest)) ∨
    ((perform a (s.setHost (.routine rest))).busy = false ∧
      (perform a (s.setHost (.routine rest))).host = .routine rest ∧
      runRoutine (a :: rest) s = runRoutine rest (perform a (s.setHost (.routine rest)))) := by
  rw [runRoutine_cons]
  split
  next acts hbusy hhost =>
    rcases perform_host a (s.setHost (.routine rest)) with h | h
    · rw [hhost] at h; cases h
    · exact .inr ⟨hbusy, h, rfl⟩
  next => exact .inl rfl

theorem runRoutine_moves {acts : List HostAction} {s : State} (hb : s.busy = false) (hh : s.host = .routine acts) :
    ReflTransGen Move s (runRoutine acts s) := by
  induction acts generalizing s with
  | nil => exact .single (.leave hb hh)
  | cons a rest ih =>
    rcases runRoutine_cons_cases a rest s with hrun | ⟨hbusy, hhost, hrun⟩
    · rw [hrun]; exact perform_moves hb hh
    · rw [hrun]; exact (perform_moves hb hh).trans (ih hbusy hhost)

/-- A routine looks at its own list, not at what the host was said to be doing before. -/
theorem runRoutine_setHost (acts : List HostAction) (s : State) (h : HostRoutine) :
    runRoutine acts (s.setHost h) = runRoutine acts s := by
  cases acts <;> rfl

theorem resume_moves {s : State} (hb : s.busy = true) (h : s.phase.toNat < s.ops.length) :
    ReflTransGen Move s (resume s) := by
  simp only [resume]
  split
  next rest hbusy hhost => exact (runBlock_moves hb h).trans (runRoutine_moves hbusy hhost)
  next => exact runBlock_moves hb h

/-! ### The grain, the instructions and the step -/

theorem goOn_moves {s : State} (hb : s.busy = true) (h : s.phase.toNat < s.ops.length) :
    ReflTransGen Move s (goOn s) := by
  cases hg : s.grain with
  | whole => rw [goOn_whole hg]; exact resume_moves hb h
  | micro => rw [goOn_micro hg]; exact .single (.block hb)

theorem goOnRoutine_moves {s : State} {acts : List HostAction} (hb : s.busy = false) (hh : s.host = .routine acts) :
    ReflTransGen Move s (goOnRoutine acts s) := by
  cases hg : s.grain with
  | whole => rw [goOnRoutine_whole hg]; exact runRoutine_moves hb hh
  | micro =>
    cases acts with
    | nil => rw [goOnRoutine_micro_nil hg]; exact .single (.leave hb hh)
    | cons a rest => rw [goOnRoutine_micro_cons hg]; exact .single (.act hb hh)

theorem beginRequest_moves {s : State} (h : s.ready = true) (r : Request) :
    ReflTransGen Move s (beginRequest r s) := by
  cases hg : s.grain with
  | whole => rw [beginRequest_whole hg]; exact .head (.accept r h) (runRequest_moves r s)
  | micro => rw [beginRequest_micro hg]; exact .single (.accept r h)

theorem beginRoutine_moves {s : State} {i : Instr} {acts : List HostAction} (h : s.ready = true)
    (he : expansion s i = some acts) : ReflTransGen Move s (beginRoutine acts s) := by
  have hb : s.busy = false := (s.ready_iff.mp h).1
  cases hg : s.grain with
  | whole =>
    rw [beginRoutine_whole hg, ← runRoutine_setHost acts s (.routine acts)]
    exact .head (.enter h he) (runRoutine_moves hb rfl)
  | micro => rw [beginRoutine_micro hg]; exact .single (.enter h he)

theorem exec_moves {i : Instr} {s t : State} (h : exec i s = .next t) : ReflTransGen Move s t := by
  cases hr : s.ready with
  | false =>
    rw [exec_of_not_ready hr] at h
    cases h
    exact .single (.setProgram s _)
  | true =>
    rcases exec_of_ready hr i with ⟨r, -, -, hx⟩ | ⟨acts, -, he, hx⟩ | ⟨-, -, e, hx⟩ <;> rw [hx] at h <;> cases h
    · exact beginRequest_moves hr r
    · exact beginRoutine_moves hr he

theorem runItem_moves {item : HostItem} {s t : State} (hr : s.ready = true) (h : runItem item s = .next t) :
    ReflTransGen Move s t := by
  unfold runItem at h
  split at h
  next => exact exec_moves h
  next => cases h; exact .single (.reject hr)
  next n _ => cases h; exact .single (.hostWait n hr)

theorem proceed_moves {s t : State} (h : proceed s = .next t) : ReflTransGen Move s t := by
  unfold proceed at h
  split at h
  next hb =>
    split at h
    next hin => cases h; exact goOn_moves hb hin
    next => cases h
  next hb =>
    replace hb : s.busy = false := by simpa using hb
    split at h
    next acts hh => cases h; exact goOnRoutine_moves hb hh
    next hh =>
      split at h
      next => cases h; exact .refl
      next item rest _ =>
        exact .head (.setProgram s rest) (runItem_moves ((s.setProgram rest).ready_iff.mpr ⟨hb, hh⟩) h)

/-- EVERYTHING a step CAN DO: it is a chain of moves. -/
theorem step_moves {s t : State} (h : step s = .next t) : ReflTransGen Move s t := by
  unfold step at h
  split at h
  next d hrst => cases h; exact .single (.reset hrst)
  next => exact proceed_moves h

/-! ## The parameters and the past events (R3, R49) -/

theorem microStep_keeps_cfg_and_trace (s : State) : (microStep s).cfg = s.cfg ∧ s.trace <+: (microStep s).trace := by
  rcases microStep_played s with ⟨p, h⟩ | ⟨p, -, -, -, -, h⟩ | ⟨p, e, h⟩ | h <;> rw [h] <;>
    simp [State.played, takeXferFail, takeError]

theorem startAction_keeps_cfg_and_trace (a : HostAction) (s : State) :
    (startAction a s).cfg = s.cfg ∧ s.trace <+: (startAction a s).trace := by
  cases a <;> simp [startAction, perform, waitUs]

theorem Move.keeps_cfg_and_trace {s t : State} (h : Move s t) : t.cfg = s.cfg ∧ s.trace <+: t.trace := by
  cases h with
  | reset hrst => exact ⟨rfl, List.prefix_rfl⟩
  | block hb => exact microStep_keeps_cfg_and_trace s
  | act hb hh => exact startAction_keeps_cfg_and_trace _ (s.setHost _)
  | leave hb hh => simp
  | accept r hr => simp
  | enter hr he => simp
  | reject hr => simp [rejectIllegal, takeError]
  | hostWait n hr => simp [Machine.hostWait, waitUs]
  | setProgram p => simp

theorem moves_keep_cfg_and_trace {s t : State} (h : ReflTransGen Move s t) :
    t.cfg = s.cfg ∧ s.trace <+: t.trace := by
  induction h with
  | refl => exact ⟨rfl, List.prefix_rfl⟩
  | tail _ hm ih =>
    obtain ⟨hcfg, htrace⟩ := hm.keeps_cfg_and_trace
    exact ⟨hcfg.trans ih.1, ih.2.trans htrace⟩

/-- Settles O53: a step is a chain of moves, and each move keeps both. -/
theorem parametersAndPastEventsStay : Obligations.ParametersAndPastEventsStay :=
  fun _ _ h => moves_keep_cfg_and_trace (step_moves h)

/-! ## The invariant (R3, R22, R23, R105, R137, R138) -/

/-- For an idle machine the invariant is about the parameters, `PHASE` and the routine alone. -/
theorem State.inv_of_idle {s : State} (hc : s.cfg.wf = true) (hb : s.busy = false) (hp : s.phase = 0)
    (hr : ∀ rest b, s.host = .routine rest → .request (.blw b) ∉ rest.tail) : s.Inv where
  cfgWf := hc
  idle _ := hp
  inside h := by simp [hb] at h
  mode h := by simp [hb] at h
  routine rest b h := by simpa [hb] using hr rest b h

theorem takeError_inv {s : State} (hc : s.cfg.wf = true) (r : Response) : (takeError r s).Inv :=
  State.inv_of_idle hc rfl rfl (fun _ _ h => by cases h)

/-- The latched mode bits are legal from acceptance on (R22). -/
theorem State.accept_inv {s : State} (hc : s.cfg.wf = true)
    (hr : ∀ rest b, s.host = .routine rest → .request (.blw b) ∉ rest) (r : Request) : (s.accept r).Inv where
  cfgWf := hc
  idle h := by cases h
  inside _ := s.accept_inside r
  mode _ := by cases r <;> simp [Request.mode, Request.seqKind]
  routine := hr

/-- While a request runs, the rest of its pseudo-operation holds no BLW. -/
theorem State.Inv.routine_of_busy {s : State} (h : s.Inv) (hb : s.busy = true) {rest : List HostAction} (b : Bool)
    (hh : s.host = .routine rest) : .request (.blw b) ∉ rest := by
  simpa [hb] using h.routine rest b hh

/-- Of an idle host's routine, all but the next action is free of BLW. -/
theorem State.Inv.routine_of_idle {s : State} (h : s.Inv) (hb : s.busy = false) {rest : List HostAction} (b : Bool)
    (hh : s.host = .routine rest) : .request (.blw b) ∉ rest.tail := by
  simpa [hb] using h.routine rest b hh

theorem State.Inv.played {s : State} (h : s.Inv) (hb : s.busy = true) (p : Played) {phase : BitVec 4}
    (hin : phase.toNat < s.ops.length) : (s.played p phase).Inv where
  cfgWf := h.cfgWf
  idle hidle := by simp [State.played, hb] at hidle
  inside _ := hin
  mode := h.mode
  routine := h.routine

theorem microStep_inv {s : State} (h : s.Inv) (hb : s.busy = true) : (microStep s).Inv := by
  rcases microStep_played s with ⟨p, hm⟩ | ⟨p, op, ops, hrem, hops, hm⟩ | ⟨p, e, hm⟩ | hm <;> rw [hm]
  · exact State.inv_of_idle h.cfgWf rfl rfl fun rest b hh hmem =>
      h.routine_of_busy hb b hh (List.mem_of_mem_tail hmem)
  · refine h.played hb p ((s.played p (s.phase + 1)).remaining_ne_nil_iff.mp ?_)
    rwa [State.remaining_played_succ hrem]
  · exact takeError_inv (s := s.played p s.phase) h.cfgWf _
  · exact h

theorem startAction_inv {s : State} (h : s.Inv) (hb : s.busy = false) {a : HostAction} {rest : List HostAction}
    (hh : s.host = .routine (a :: rest)) : (startAction a (s.setHost (.routine rest))).Inv := by
  have hrest : ∀ acts b, HostRoutine.routine rest = .routine acts → .request (.blw b) ∉ acts := by
    intro acts b heq
    cases heq
    exact h.routine_of_idle hb b hh
  cases a with
  | request r => exact State.accept_inv (s := s.setHost (.routine rest)) h.cfgWf hrest r
  | _ =>
    exact State.inv_of_idle h.cfgWf hb (h.idle hb) fun acts b heq hmem =>
      hrest acts b heq (List.mem_of_mem_tail hmem)

/-- A BLW is the only request of its operation (R137, R138). -/
theorem expansion_tail_without_blw {s : State} {i : Instr} {acts : List HostAction} (h : expansion s i = some acts)
    (b : Bool) : .request (.blw b) ∉ acts.tail := by
  cases i with
  | setCursor col row =>
    obtain ⟨a, -, rfl⟩ := Option.map_eq_some_iff.mp h
    simp
  | print text =>
    obtain ⟨bytes, -, rfl⟩ := Option.map_eq_some_iff.mp h
    exact fun hmem => by simpa using List.mem_of_mem_tail hmem
  | _ =>
    cases h
    simp [updateThenSend]

theorem Move.keeps_inv {s t : State} (h : Move s t) (hs : s.Inv) : t.Inv := by
  cases h with
  | reset hrst => exact State.inv_of_idle hs.cfgWf rfl rfl (fun _ _ h => by cases h)
  | block hb => exact microStep_inv hs hb
  | act hb hh => exact startAction_inv hs hb hh
  | leave hb hh => exact State.inv_of_idle hs.cfgWf hb (hs.idle hb) (fun _ _ h => by cases h)
  | accept r hr =>
    obtain ⟨-, hdirect⟩ := s.ready_iff.mp hr
    exact State.accept_inv hs.cfgWf (fun _ _ h => by rw [hdirect] at h; cases h) r
  | enter hr he =>
    obtain ⟨hb, -⟩ := s.ready_iff.mp hr
    exact State.inv_of_idle hs.cfgWf hb (hs.idle hb) fun _ b heq => by
      cases heq
      exact expansion_tail_without_blw he b
  | reject hr => exact takeError_inv hs.cfgWf _
  | hostWait n hr =>
    obtain ⟨hb, -⟩ := s.ready_iff.mp hr
    exact State.inv_of_idle hs.cfgWf hb (hs.idle hb) fun _ b hh => hs.routine_of_idle hb b hh
  | setProgram p => exact ⟨hs.cfgWf, hs.idle, hs.inside, hs.mode, hs.routine⟩

theorem moves_keep_inv {s t : State} (h : ReflTransGen Move s t) (hs : s.Inv) : t.Inv := by
  induction h with
  | refl => exact hs
  | tail _ hm ih => exact hm.keeps_inv ih

/-- Settles O49: a step is a chain of moves, and each move keeps the invariant. -/
theorem stepKeepsTheInvariant : Obligations.StepKeepsTheInvariant :=
  fun _ _ hs h => moves_keep_inv (step_moves h) hs

end Sys2Proof.Machine

namespace Sys2Proof.Machine

open Relation (ReflTransGen)

/-! ## The instructions, the steps and the micro-operations, case by case -/

/-- The one request of a `REQ11` or `CMD8` row is begun as a request. -/
theorem exec_of_single_request {s : State} {i : Instr} {r : Request} (h : s.ready = true) (hi : i.isPseudo = false)
    (he : expansion s i = some [.request r]) : exec i s = .next (beginRequest r s) := by
  rcases exec_of_ready h i with ⟨r', -, he', hx⟩ | ⟨-, hi', -⟩ | ⟨hi', -⟩
  · rw [he] at he'
    cases he'
    exact hx
  · simp [hi] at hi'
  · simp [hi] at hi'

/-- The expansion of a `PSEUDO` row is begun as a routine. -/
theorem exec_of_pseudo {s : State} {i : Instr} {acts : List HostAction} (h : s.ready = true) (hi : i.isPseudo = true)
    (he : expansion s i = some acts) : exec i s = .next (beginRoutine acts s) := by
  rcases exec_of_ready h i with ⟨-, hi', -⟩ | ⟨acts', -, he', hx⟩ | ⟨-, he', -⟩
  · simp [hi] at hi'
  · rw [he] at he'
    cases he'
    exact hx
  · simp [he] at he'

/-- No instruction faults: the one fault is `step`'s own (log 22). -/
theorem exec_ne_fault (i : Instr) (s : State) (f : Fault) : exec i s ≠ .fault f := by
  cases hr : s.ready with
  | false => simp [exec_of_not_ready hr]
  | true =>
    rcases exec_of_ready hr i with ⟨r, -, -, hx⟩ | ⟨acts, -, -, hx⟩ | ⟨-, -, e, hx⟩ <;> simp [hx]

theorem runItem_ne_fault (item : HostItem) (s : State) (f : Fault) : runItem item s ≠ .fault f := by
  unfold runItem
  split
  · exact exec_ne_fault _ s f
  · simp
  · simp

theorem step_of_busy {s : State} (hr : s.rst = .released) (hb : s.busy = true) (h : s.phase.toNat < s.ops.length) :
    step s = .next (goOn s) := by
  simp [step, proceed, hr, hb, h]

theorem step_of_routine {s : State} {acts : List HostAction} (hr : s.rst = .released) (hb : s.busy = false)
    (hh : s.host = .routine acts) : step s = .next (goOnRoutine acts s) := by
  simp [step, proceed, hr, hb, hh]

theorem step_of_nothing_presented {s : State} (hr : s.rst = .released) (hb : s.busy = false) (hh : s.host = .direct)
    (hp : s.program = []) : step s = .next s := by
  simp [step, proceed, hr, hb, hh, hp]

theorem step_of_item {s : State} {item : HostItem} {rest : List HostItem} (hr : s.rst = .released)
    (hb : s.busy = false) (hh : s.host = .direct) (hp : s.program = item :: rest) :
    step s = runItem item (s.setProgram rest) := by
  simp [step, proceed, hr, hb, hh, hp]

/-- Settles O50: `step` faults only at a busy block past its sequence, which the invariant shuts out. -/
theorem invariantRulesOutFaults : Obligations.InvariantRulesOutFaults := by
  intro s f hs
  cases hr : s.rst with
  | asserted d => simp [step, hr]
  | released =>
    cases hb : s.busy with
    | true => simp [step_of_busy hr hb (hs.inside hb)]
    | false =>
      cases hh : s.host with
      | routine acts => simp [step_of_routine hr hb hh]
      | direct =>
        cases hp : s.program with
        | nil => simp [step_of_nothing_presented hr hb hh hp]
        | cons item rest => rw [step_of_item hr hb hh hp]; exact runItem_ne_fault item _ f

/-! ## Reset, acceptance and the flag groups (R22, R27 to R29, R36) -/

/-- Settles O48. -/
theorem invariantHoldsAtReset : Obligations.InvariantHoldsAtReset :=
  State.inv_of_idle (by decide) rfl rfl (fun _ _ h => by cases h)

/-- Settles O11: every field is the one `State.resetWith` writes. -/
theorem resetStateOfTheBlock : Obligations.ResetStateOfTheBlock :=
  ⟨fun _ _ _ => ⟨rfl, rfl, rfl, rfl, rfl, rfl, rfl⟩, ⟨ResetDraw.named, 0, rfl⟩, rfl⟩

/-- Settles O32: the bytes by the values of the flags, `FS` by its definition. -/
theorem flagGroupsPackAndFunctionSet : Obligations.FlagGroupsPackAndFunctionSet :=
  ⟨by decide, by decide, by decide, fun c => by simp [functionSetOf]⟩

/-- Settles O27: at the micro grain `exec` answers the state `State.accept` writes. -/
theorem acceptanceLatchesTheRequest : Obligations.AcceptanceLatchesTheRequest := by
  intro s r hready hgrain
  obtain ⟨-, hhost⟩ := s.ready_iff.mp hready
  refine ⟨s.accept r, by rw [exec_request hready, beginRequest_micro hgrain], rfl, rfl, backlight_eq_encBl _ _, ?_, ?_,
    ?_, ?_, rfl, rfl, rfl, rfl, hhost, rfl, rfl, hgrain, ⟨rfl, rfl, rfl⟩, rfl⟩
  · rintro v rfl
    exact ⟨rfl, rfl⟩
  · rintro v rfl
    exact ⟨rfl, rfl⟩
  · rintro n rfl
    exact ⟨loNibble_operand_nib n, rfl⟩
  · rw [State.length_ops]
    cases r <;> rfl

/-! ## Steps at the micro grain (log 1) -/

/-- `t` is the state the next step leads to. -/
def Next (s t : State) : Prop := step s = .next t

/-- Steps at the micro grain, and none of them is a reset. -/
structure State.Micro (s : State) : Prop where
  grain : s.grain = .micro
  rst : s.rst = .released

theorem next_of_busy {s : State} (h : s.Micro) (hb : s.busy = true) (hin : s.phase.toNat < s.ops.length) :
    Next s (microStep s) := by
  rw [Next, step_of_busy h.rst hb hin, goOn_micro h.grain]

theorem next_of_action {s : State} {a : HostAction} {rest : List HostAction} (h : s.Micro) (hb : s.busy = false)
    (hh : s.host = .routine (a :: rest)) : Next s (startAction a (s.setHost (.routine rest))) := by
  rw [Next, step_of_routine h.rst hb hh, goOnRoutine_micro_cons h.grain]

theorem next_of_routine_end {s : State} (h : s.Micro) (hb : s.busy = false) (hh : s.host = .routine []) :
    Next s (s.setHost .direct) := by
  rw [Next, step_of_routine h.rst hb hh, goOnRoutine_micro_nil h.grain]

/-- Settles O28: each kind of step, by what the machine is in the middle of. -/
theorem microGrainStepIsOneMicroOperation : Obligations.MicroGrainStepIsOneMicroOperation := by
  intro s hgrain hrst
  have h : s.Micro := ⟨hgrain, hrst⟩
  refine ⟨next_of_busy h, fun hb => ⟨next_of_routine_end h hb, fun _ _ => next_of_action h hb,
    fun _ _ => next_of_action h hb, fun _ _ => next_of_action h hb, fun _ _ => next_of_action h hb,
    fun _ _ => next_of_action h hb, fun _ => next_of_action h hb⟩, fun i acts hready hi he => ?_⟩
  rw [exec_of_pseudo hready hi he, beginRoutine_micro hgrain]
  rfl

/-! ## One micro-operation (R23, R105) -/

/-- What a micro-operation that completes plays, with the answers `as` left. -/
def State.opPlay (s : State) (op : MicroOp) (as : List Answer) : Played :=
  ⟨[op.event s.cfg s.bl], as, expOutOf [op.event s.cfg s.bl] s.expOut, .completed⟩

/-- A micro-operation completes where the master's next answer, if it takes one, is ok. -/
theorem runOp_of_ok {s : State} {op : MicroOp} {as : List Answer}
    (h : s.answers = List.replicate (transfers [op.event s.cfg s.bl]) .ok ++ as) :
    runOp op s = .done (s.played (s.opPlay op as) (s.phase + 1)) := by
  cases op with
  | wait n =>
    replace h : s.answers = as := h
    subst h
    rfl
  | transfer d =>
    replace h : s.answers = .ok :: as := h
    simp only [runOp, expanderWrite, i2cWrite, h]
    rfl

theorem microStep_of_ok {s : State} {op : MicroOp} {ops : List MicroOp} {as : List Answer}
    (hrem : s.remaining = op :: ops) (h : s.answers = List.replicate (transfers [op.event s.cfg s.bl]) .ok ++ as) :
    microStep s = if ops = [] then (s.played (s.opPlay op as) (s.phase + 1)).respond .ok
      else s.played (s.opPlay op as) (s.phase + 1) := by
  simp only [microStep, hrem, runOp_of_ok h]

theorem microStep_of_fail {s : State} {d : Byte} {ops : List MicroOp} {e : ErrVal} {l : Bool} {as : List Answer}
    (hrem : s.remaining = .transfer d :: ops) (h : s.answers = .fail e l :: as) :
    microStep s = takeXferFail e
      ((s.answered as (if l then merge s.cfg.pins s.bl d else s.expOut)).emit
        (.xfail s.cfg.i2cAddr (merge s.cfg.pins s.bl d) e)) := by
  simp only [microStep, hrem, runOp, expanderWrite, i2cWrite, h]

theorem microStep_of_unanswered {s : State} {d : Byte} {ops : List MicroOp} (hrem : s.remaining = .transfer d :: ops)
    (h : s.answers = []) : microStep s = s := by
  simp only [microStep, hrem, runOp, expanderWrite, i2cWrite, h]

/-- Settles O25: the three outcomes of a micro-operation, each by its equation. -/
theorem phaseCountsMicroOperations : Obligations.PhaseCountsMicroOperations := by
  intro s op rest hbusy hrem
  have hin : s.phase.toNat < s.ops.length := s.remaining_ne_nil_iff.mp (by simp [hrem])
  refine ⟨s.length_ops, fun hok => ?_, ?_, ?_⟩
  · obtain ⟨as, has⟩ : ∃ as, s.answers = List.replicate (transfers [op.event s.cfg s.bl]) .ok ++ as := by
      cases op with
      | wait n => exact ⟨s.answers, rfl⟩
      | transfer d =>
        rcases hok with ⟨n, hn⟩ | hok
        · cases hn
        · exact hok
    have hm := microStep_of_ok hrem has
    constructor
    · intro hne
      rw [hm, if_neg hne]
      exact ⟨State.toNat_phase_succ hin, State.remaining_played_succ hrem _, hbusy⟩
    · intro hnil
      rw [hm, if_pos hnil]
      exact ⟨rfl, rfl, _, rfl⟩
  · rintro d e l as rfl hfail
    rw [microStep_of_fail hrem hfail]
    exact ⟨rfl, rfl, by simp [takeXferFail, takeError]⟩
  · rintro d rfl hnone
    exact microStep_of_unanswered hrem hnone

/-- Before the last of its sequence, a micro-operation that completes leaves the block at the next one. -/
theorem next_of_ok {s : State} {op : MicroOp} {ops : List MicroOp} {as : List Answer} (h : s.Micro)
    (hb : s.busy = true) (hrem : s.remaining = op :: ops) (hne : ops ≠ [])
    (hans : s.answers = List.replicate (transfers [op.event s.cfg s.bl]) .ok ++ as) :
    Next s (s.played (s.opPlay op as) (s.phase + 1)) := by
  have hnext := next_of_busy h hb (s.remaining_ne_nil_iff.mp (by simp [hrem]))
  rwa [microStep_of_ok hrem hans, if_neg hne] at hnext

/-! ## Every phase of a request (R23, R182) -/

/-- Where the master completes the transfers to come, `k` steps at the micro grain lead `k` micro-operations further
in the sequence. -/
theorem stepsTo_inside {s : State} {ops : List MicroOp} {rest : List Answer} {k : Nat} (h : s.Micro)
    (hb : s.busy = true) (hrem : s.remaining = ops) (hok : answersOk (transfers (opEvents s.cfg s.bl ops)) rest s)
    (hk : k < ops.length) :
    ∃ u, stepsTo k s = some u ∧ u.busy = true ∧ u.phase.toNat = s.phase.toNat + k ∧
      u.trace = s.trace ++ (opEvents s.cfg s.bl ops).take k ∧ u.bl = s.bl ∧ u.cfg = s.cfg := by
  induction k generalizing s ops with
  | zero => exact ⟨s, rfl, hb, rfl, by simp, rfl, rfl⟩
  | succ k ih =>
    cases ops with
    | nil => simp at hk
    | cons op ops =>
      have hin : s.phase.toNat < s.ops.length := s.remaining_ne_nil_iff.mp (by simp [hrem])
      have hne : ops ≠ [] := List.ne_nil_of_length_pos (by simp at hk; omega)
      obtain ⟨as, has, hans⟩ : ∃ as, as = List.replicate (transfers (opEvents s.cfg s.bl ops)) .ok ++ rest ∧
          s.answers = List.replicate (transfers [op.event s.cfg s.bl]) .ok ++ as := by
        refine ⟨_, rfl, ?_⟩
        rw [← List.append_assoc, ← List.replicate_add, ← transfers_append]
        exact hok
      have hstep := next_of_ok h hb hrem hne hans
      obtain ⟨u, hu, hbusy, hphase, htrace, hbl, hcfg⟩ :=
        ih (s := s.played (s.opPlay op as) (s.phase + 1)) ⟨h.grain, h.rst⟩ hb (State.remaining_played_succ hrem _) has
          (by simpa using hk)
      refine ⟨u, by rw [stepsTo, hstep]; exact hu, hbusy, ?_, ?_, hbl, hcfg⟩
      · have hsucc := State.toNat_phase_succ hin
        simp only [State.played] at hphase
        omega
      · simpa [State.played, State.opPlay, opEvents] using htrace

/-- Settles O29: acceptance names phase 0, `stepsTo_inside` gives the others, and a reset writes the state of R36. -/
theorem everyPhaseIsReachedAndResetDropsItThere : Obligations.EveryPhaseIsReachedAndResetDropsItThere := by
  rintro s r rest evs k d hready hgrain hrst hpins rfl hok hk
  have hevs : opEvents (s.accept r).cfg (s.accept r).bl (s.accept r).remaining = encEvents s.cfg s.bl r :=
    opEvents_opSequence hpins s.bl r
  have hlen : k < (s.accept r).remaining.length := by
    rw [← hevs] at hk
    simpa [opEvents] using hk
  obtain ⟨u, hu, hbusy, hphase, htrace, hbl, hcfg⟩ :=
    stepsTo_inside (s := s.accept r) (rest := rest) ⟨hgrain, hrst⟩ rfl rfl (by rwa [hevs]) hlen
  rw [hevs] at htrace
  exact ⟨s.accept r, u, _, by rw [exec_request hready, beginRequest_micro hgrain], hu, hbusy, by simpa using hphase,
    htrace, hbl.trans (backlight_eq_encBl _ _), rfl, rfl, rfl, congrArg Config.blReset hcfg, rfl, rfl, htrace⟩

/-! ## The two grains (log 1) -/

theorem stepsTo_of_chain {s t : State} (h : ReflTransGen Next s t) : ∃ n, stepsTo n s = some t := by
  induction h using ReflTransGen.head_induction_on with
  | refl => exact ⟨0, rfl⟩
  | head hstep _ ih =>
    obtain ⟨n, hn⟩ := ih
    exact ⟨n + 1, by rw [stepsTo, hstep]; exact hn⟩

theorem microStep_micro {s : State} (h : s.Micro) : (microStep s).Micro := by
  rcases microStep_played s with ⟨p, hm⟩ | ⟨p, -, -, -, -, hm⟩ | ⟨p, e, hm⟩ | hm <;> rw [hm] <;> exact ⟨h.grain, h.rst⟩

theorem runOps_micro (ops : List MicroOp) {s : State} (h : s.Micro) : (runOps ops s).Micro := by
  obtain ⟨-, -, -, -, -, -, -, -, hrst, -, -, hgrain, -⟩ := runOps_frame ops s
  exact ⟨hgrain.trans h.grain, hrst.trans h.rst⟩

theorem perform_micro (a : HostAction) {s : State} (h : s.Micro) : (perform a s).Micro := by
  cases a with
  | request r => exact runOps_micro _ (s := s.accept r) ⟨h.grain, h.rst⟩
  | _ => exact ⟨h.grain, h.rst⟩

/-- The run of a sequence is made up of steps at the micro grain. -/
theorem runOps_chain {ops : List MicroOp} {s : State} (h : s.Micro) (hb : s.busy = true) (hrem : s.remaining = ops)
    (hne : ops ≠ []) : ReflTransGen Next s (runOps ops s) := by
  induction ops generalizing s with
  | nil => exact absurd rfl hne
  | cons op ops ih =>
    have hfirst : Next s (microStep s) := next_of_busy h hb (s.remaining_ne_nil_iff.mp (by simp [hrem]))
    rcases runOps_eq_microStep hrem with hrun | ⟨hops, hbusy, hrest, hrun⟩ <;> rw [hrun]
    · exact .single hfirst
    · exact .head hfirst (ih (microStep_micro h) (hbusy.trans hb) hrest hops)

theorem runRequest_chain (r : Request) {s : State} (h : s.Micro) : ReflTransGen Next (s.accept r) (runRequest r s) :=
  runOps_chain (s := s.accept r) ⟨h.grain, h.rst⟩ rfl rfl ((s.accept r).remaining_ne_nil_iff.mpr (s.accept_inside r))

theorem perform_chain {s : State} {a : HostAction} {rest : List HostAction} (h : s.Micro) (hb : s.busy = false)
    (hh : s.host = .routine (a :: rest)) : ReflTransGen Next s (perform a (s.setHost (.routine rest))) := by
  have hfirst := next_of_action h hb hh
  cases a with
  | request r => exact .head hfirst (runRequest_chain r (s := s.setHost (.routine rest)) ⟨h.grain, h.rst⟩)
  | _ => exact .single hfirst

/-- The run of a routine is made up of steps at the micro grain. -/
theorem runRoutine_chain {acts : List HostAction} {s : State} (h : s.Micro) (hb : s.busy = false)
    (hh : s.host = .routine acts) : ReflTransGen Next s (runRoutine acts s) := by
  induction acts generalizing s with
  | nil => exact .single (next_of_routine_end h hb hh)
  | cons a rest ih =>
    have hfirst := perform_chain h hb hh
    rcases runRoutine_cons_cases a rest s with hrun | ⟨hbusy, hhost, hrun⟩ <;> rw [hrun]
    · exact hfirst
    · exact hfirst.trans (ih (perform_micro a (s := s.setHost (.routine rest)) ⟨h.grain, h.rst⟩) hbusy hhost)

/-- The same state at the micro grain. -/
def State.toMicro (s : State) : State := { s with grain := .micro }

theorem State.toMicro_micro {s : State} (h : s.rst = .released) : s.toMicro.Micro := ⟨rfl, h⟩

theorem runOps_toMicro (ops : List MicroOp) (s : State) : runOps ops s.toMicro = (runOps ops s).toMicro := by
  rw [runOps_eq, runOps_eq]
  change (s.toMicro.played (play (opEvents s.cfg s.bl ops) s.answers s.expOut) _).settle
    (play (opEvents s.cfg s.bl ops) s.answers s.expOut).ending = _
  cases (play (opEvents s.cfg s.bl ops) s.answers s.expOut).ending <;> rfl

theorem runRequest_toMicro (r : Request) (s : State) : runRequest r s.toMicro = (runRequest r s).toMicro :=
  runOps_toMicro _ (s.accept r)

theorem perform_toMicro (a : HostAction) (s : State) : perform a s.toMicro = (perform a s).toMicro := by
  cases a with
  | request r => exact runRequest_toMicro r s
  | _ => rfl

/-- A routine does not look at the grain. -/
theorem runRoutine_toMicro (acts : List HostAction) (s : State) :
    runRoutine acts s.toMicro = (runRoutine acts s).toMicro := by
  induction acts generalizing s with
  | nil => rfl
  | cons a rest ih =>
    have ha : perform a (s.toMicro.setHost (.routine rest)) = (perform a (s.setHost (.routine rest))).toMicro :=
      perform_toMicro a (s.setHost (.routine rest))
    rw [runRoutine_cons, runRoutine_cons, ha]
    simp only [State.toMicro]
    split
    · exact ih _
    · rfl

theorem expansion_toMicro (s : State) (i : Instr) : expansion s.toMicro i = expansion s i := by
  cases i <;> rfl

/-- Settles O30: the runs of the whole grain do not look at the grain, and are chains of steps at the micro grain. -/
theorem microStepsMakeUpTheWholeInstruction : Obligations.MicroStepsMakeUpTheWholeInstruction := by
  intro s t i hready hgrain hrst hx
  obtain ⟨hb, -⟩ := s.ready_iff.mp hready
  have hready' : s.toMicro.ready = true := hready
  have hmicro := State.toMicro_micro hrst
  rcases exec_of_ready hready i with ⟨r, hi, he, hx'⟩ | ⟨acts, hi, he, hx'⟩ | ⟨-, -, e, hx'⟩ <;> rw [hx] at hx'
  · rw [beginRequest_whole hgrain] at hx'
    cases hx'
    obtain ⟨n, hn⟩ := stepsTo_of_chain (runRequest_chain r hmicro)
    rw [runRequest_toMicro] at hn
    exact ⟨n, s.toMicro.accept r,
      exec_of_single_request hready' hi ((expansion_toMicro s i).trans he), hn⟩
  · rw [beginRoutine_whole hgrain] at hx'
    cases hx'
    obtain ⟨n, hn⟩ := stepsTo_of_chain
      (runRoutine_chain (acts := acts) (s := s.toMicro.setHost (.routine acts)) ⟨rfl, hrst⟩ hb rfl)
    rw [runRoutine_setHost, runRoutine_toMicro] at hn
    exact ⟨n, s.toMicro.setHost (.routine acts),
      exec_of_pseudo hready' hi ((expansion_toMicro s i).trans he), hn⟩
  · cases hx'

/-! ## What the host presents, while the block is busy (R24, R192) -/

/-- What the host presents is as before, or a failure has dropped it and its response is the last event (log 12). -/
def KeepsProgramOrFails (s t : State) : Prop :=
  t.program = s.program ∨ (t.program = [] ∧ ∃ before e, t.trace = s.trace ++ before ++ [.rsp (.xferFail e)])

theorem KeepsProgramOrFails.of_kept {s u t : State} (h : KeepsProgramOrFails u t) (hp : u.program = s.program)
    (htrace : s.trace <+: u.trace) : KeepsProgramOrFails s t := by
  obtain ⟨evs, hevs⟩ := htrace
  rcases h with h | ⟨h, before, e, ht⟩
  · exact .inl (h.trans hp)
  · exact .inr ⟨h, evs ++ before, e, by rw [ht, ← hevs, ← List.append_assoc]⟩

theorem takeXferFail_played_fails (s : State) (p : Played) (phase : BitVec 4) (e : ErrVal) :
    KeepsProgramOrFails s (takeXferFail e (s.played p phase)) :=
  .inr ⟨rfl, p.events, e, rfl⟩

theorem microStep_program (s : State) : KeepsProgramOrFails s (microStep s) := by
  rcases microStep_played s with ⟨p, h⟩ | ⟨p, -, -, -, -, h⟩ | ⟨p, e, h⟩ | h <;> rw [h]
  · exact .inl rfl
  · exact .inl rfl
  · exact takeXferFail_played_fails s p _ e
  · exact .inl rfl

/-- Only a failure takes the host out of its routine during a request, and only a failure drops what it presents. -/
theorem runBlock_program (s : State) :
    (runBlock s).program = s.program ∨ ((runBlock s).host = .direct ∧ KeepsProgramOrFails s (runBlock s)) := by
  rw [runBlock, runOps_eq]
  generalize play _ _ _ = p
  rcases p.ending with _ | e | _
  · exact .inl rfl
  · exact .inr ⟨rfl, takeXferFail_played_fails s p _ e⟩
  · exact .inl rfl

theorem runRoutine_program {acts : List HostAction} {s : State} (hb : s.busy = false) (hw : s.cfg.pins.wf = true) :
    KeepsProgramOrFails s (runRoutine acts s) := by
  obtain ⟨htrace, -, -, -, -, -, -, -, hfail, hkeep⟩ := runRoutine_play acts hb hw rfl
  by_cases h : ∃ e, (play (routineEvents s.cfg s.bl acts) s.answers s.expOut).ending = .failed e
  · obtain ⟨e, he⟩ := h
    rw [he] at htrace
    exact .inr ⟨(hfail e he).2.1, _, e, htrace⟩
  · exact .inl (hkeep h)

theorem resume_program {s : State} (hw : s.cfg.pins.wf = true) : KeepsProgramOrFails s (resume s) := by
  obtain ⟨hcfg, -, -, -, -, -, -, -, -, -, -, -, htrace⟩ := runOps_frame s.remaining s
  simp only [resume]
  split
  next rest hbusy hhost =>
    have hprog : (runBlock s).program = s.program :=
      (runBlock_program s).resolve_right fun ⟨hdirect, _⟩ => by rw [hhost] at hdirect; cases hdirect
    exact (runRoutine_program hbusy (hcfg ▸ hw)).of_kept hprog htrace
  next => exact (runBlock_program s).elim .inl And.right

theorem Config.pins_wf {c : Config} (h : c.wf = true) : c.pins.wf = true := by
  simp only [Config.wf, Bool.and_eq_true] at h
  exact h.2

/-- Settles O15: a step of a busy block is one micro-operation, or the run of what is in progress. -/
theorem busyBlockAcceptsNothing : Obligations.BusyBlockAcceptsNothing := by
  intro s t hs hrst hb hstep
  rw [step_of_busy hrst hb (hs.inside hb)] at hstep
  cases hstep
  cases hg : s.grain with
  | whole => rw [goOn_whole hg]; exact resume_program (Config.pins_wf hs.cfgWf)
  | micro => rw [goOn_micro hg]; exact microStep_program s

/-! ## What an instruction's own actions keep, the instruction keeps -/

/-- `P` outlasts every action of `acts`, and what the host does between them. -/
structure KeptBy (P : State → Prop) (acts : List HostAction) : Prop where
  setHost : ∀ u h, P u → P (u.setHost h)
  accept : ∀ u r, .request r ∈ acts → P u → P (u.accept r)
  perform : ∀ u a, a ∈ acts → P u → P (perform a u)

theorem KeptBy.tail {P : State → Prop} {a : HostAction} {acts : List HostAction} (h : KeptBy P (a :: acts)) :
    KeptBy P acts where
  setHost := h.setHost
  accept u r hr := h.accept u r (List.mem_cons_of_mem a hr)
  perform u b hb := h.perform u b (List.mem_cons_of_mem a hb)

theorem KeptBy.runRoutine {P : State → Prop} {acts : List HostAction} (h : KeptBy P acts) {s : State} (hs : P s) :
    P (runRoutine acts s) := by
  induction acts generalizing s with
  | nil => exact h.setHost s .direct hs
  | cons a rest ih =>
    have ha := h.perform _ a List.mem_cons_self (h.setHost s (.routine rest) hs)
    rcases runRoutine_cons_cases a rest s with hrun | ⟨-, -, hrun⟩ <;> rw [hrun]
    · exact ha
    · exact ih h.tail ha

theorem KeptBy.beginRoutine {P : State → Prop} {acts : List HostAction} (h : KeptBy P acts) {s : State} (hs : P s) :
    P (beginRoutine acts s) := by
  cases hg : s.grain with
  | whole => rw [beginRoutine_whole hg]; exact h.runRoutine hs
  | micro => rw [beginRoutine_micro hg]; exact h.setHost s _ hs

theorem KeptBy.beginRequest {P : State → Prop} {r : Request} (h : KeptBy P [.request r]) {s : State} (hs : P s) :
    P (beginRequest r s) := by
  cases hg : s.grain with
  | whole => rw [beginRequest_whole hg]; exact h.perform s (.request r) List.mem_cons_self hs
  | micro => rw [beginRequest_micro hg]; exact h.accept s r List.mem_cons_self hs

/-- What the actions of its expansion keep, an instruction keeps, at either grain and whatever the master answers; where
the machine is not ready it only stays presented (log 13). -/
theorem exec_keeps {P : State → Prop} {i : Instr} {s t : State} (hx : exec i s = .next t)
    (hprog : ∀ p, P (s.setProgram p)) (hs : P s) (h : ∀ acts, expansion s i = some acts → KeptBy P acts) : P t := by
  cases hr : s.ready with
  | false =>
    rw [exec_of_not_ready hr] at hx
    cases hx
    exact hprog _
  | true =>
    rcases exec_of_ready hr i with ⟨r, -, he, hx'⟩ | ⟨acts, -, he, hx'⟩ | ⟨-, -, e, hx'⟩ <;> rw [hx'] at hx <;> cases hx
    · exact (h _ he).beginRequest hs
    · exact (h _ he).beginRoutine hs

/-! ## Which instructions write which register (R21, R26 to R30) -/

/-- The instructions whose expansion may hold an action that writes a register (R74). -/
def HostAction.mayBeOf (i : Instr) : HostAction → Prop
  | .request (.blw b) => i ∈ [Instr.blw b, if b then .backlight else .noBacklight]
  | .setDc _ => i ∈ [Instr.initializeOp, .noDisplay, .display, .noCursor, .cursor, .noBlink, .blink]
  | .setEm _ => i ∈ [Instr.initializeOp, .leftToRight, .rightToLeft, .autoscroll, .noAutoscroll]
  | .setFs _ | .markInit => i = .initializeOp
  | .request _ | .hwait _ => True

theorem mayBeOf_of_mem_expansion {s : State} {i : Instr} {acts : List HostAction} (h : expansion s i = some acts) :
    ∀ a ∈ acts, a.mayBeOf i := by
  cases i with
  | setCursor col row =>
    obtain ⟨a, -, rfl⟩ := Option.map_eq_some_iff.mp h
    simp [HostAction.mayBeOf]
  | print text =>
    obtain ⟨bytes, -, rfl⟩ := Option.map_eq_some_iff.mp h
    simp [HostAction.mayBeOf]
  | _ =>
    cases h
    simp [HostAction.mayBeOf, updateThenSend]

/-- What `i` may have done to the registers between `s` and `t`. -/
structure RegisterFrame (i : Instr) (s t : State) : Prop where
  bl : t.bl = s.bl ∨ i ∈ [Instr.blw t.bl, if t.bl then .backlight else .noBacklight]
  dc : t.dc = s.dc ∨ i ∈ [Instr.initializeOp, .noDisplay, .display, .noCursor, .cursor, .noBlink, .blink]
  em : t.em = s.em ∨ i ∈ [Instr.initializeOp, .leftToRight, .rightToLeft, .autoscroll, .noAutoscroll]
  fs : t.fs = s.fs ∨ i = .initializeOp
  init : t.init = true → s.init = true ∨ i = .initializeOp

theorem RegisterFrame.accept {i : Instr} {s u : State} (h : RegisterFrame i s u) {r : Request}
    (hr : (HostAction.request r).mayBeOf i) : RegisterFrame i s (u.accept r) where
  bl := by
    cases r with
    | blw b => exact .inr hr
    | _ => exact h.bl
  dc := h.dc
  em := h.em
  fs := h.fs
  init := h.init

/-- The run of a sequence writes no register, but `INIT` to 0. -/
theorem RegisterFrame.runOps {i : Instr} {s u : State} (h : RegisterFrame i s u) (ops : List MicroOp) :
    RegisterFrame i s (runOps ops u) := by
  obtain ⟨-, hbl, -, -, -, hdc, hem, hfs, -, -, hinit, -, -⟩ := runOps_frame ops u
  exact ⟨hbl ▸ h.bl, hdc ▸ h.dc, hem ▸ h.em, hfs ▸ h.fs, fun hi =>
    hinit.elim (fun heq => h.init (heq ▸ hi)) fun heq => by rw [heq] at hi; cases hi⟩

theorem RegisterFrame.perform {i : Instr} {s u : State} (h : RegisterFrame i s u) {a : HostAction}
    (ha : a.mayBeOf i) : RegisterFrame i s (perform a u) := by
  cases a with
  | request r => exact (h.accept ha).runOps _
  | hwait n => exact ⟨h.bl, h.dc, h.em, h.fs, h.init⟩
  | setFs v => exact { h with fs := .inr ha }
  | setDc v => exact { h with dc := .inr ha }
  | setEm v => exact { h with em := .inr ha }
  | markInit => exact { h with init := fun _ => .inr ha }

/-- The frame of every instruction. -/
theorem exec_registerFrame {i : Instr} {s t : State} (hx : exec i s = .next t) : RegisterFrame i s t := by
  refine exec_keeps hx (fun p => ⟨.inl rfl, .inl rfl, .inl rfl, .inl rfl, .inl⟩)
    ⟨.inl rfl, .inl rfl, .inl rfl, .inl rfl, .inl⟩ fun acts he => ?_
  have hown := mayBeOf_of_mem_expansion he
  exact {
    setHost := fun _ _ h => ⟨h.bl, h.dc, h.em, h.fs, h.init⟩
    accept := fun _ _ hr h => h.accept (hown _ hr)
    perform := fun _ a ha h => h.perform (hown a ha) }

/-- Settles O54: the clause of the frame about `BL`. -/
theorem onlyBlwWritesTheBacklight : Obligations.OnlyBlwWritesTheBacklight := by
  intro s t i hx hne
  have hi := (exec_registerFrame hx).bl.resolve_left hne
  cases hbl : t.bl <;> simpa [hbl] using hi

/-- A request that is begun has been accepted, and has played a part of its trace and settled it. -/
theorem beginRequest_settles (r : Request) (s : State) :
    ∃ p phase, beginRequest r s = ((s.accept r).played p phase).settle p.ending := by
  cases hg : s.grain with
  | whole => rw [beginRequest_whole hg]; exact ⟨_, _, runOps_eq _ (s.accept r)⟩
  | micro =>
    rw [beginRequest_micro hg]
    exact ⟨⟨[], s.answers, s.expOut, .waiting⟩, 0, by simp [State.settle, State.played, State.accept]⟩

theorem beginRequest_shadow (r : Request) (s : State) :
    SameFlags s (beginRequest r s) ∧ ((beginRequest r s).init = s.init ∨ ((beginRequest r s).init = false ∧
      ∃ evs e, (beginRequest r s).trace = s.trace ++ evs ∧ .rsp (.xferFail e) ∈ evs)) := by
  obtain ⟨p, phase, h⟩ := beginRequest_settles r s
  rw [h]
  rcases p.ending with _ | e | _
  · exact ⟨⟨rfl, rfl, rfl⟩, .inl rfl⟩
  · exact ⟨⟨rfl, rfl, rfl⟩, .inr ⟨rfl, p.events ++ [.rsp (.xferFail e)], e,
      by simp [State.settle, State.played, takeXferFail, takeError], by simp⟩⟩
  · exact ⟨⟨rfl, rfl, rfl⟩, .inl rfl⟩

theorem exec_shadow_of_not_pseudo {i : Instr} {s t : State} (hx : exec i s = .next t) (hi : i.isPseudo = false) :
    SameFlags s t ∧
      (t.init = s.init ∨ (t.init = false ∧ ∃ evs e, t.trace = s.trace ++ evs ∧ .rsp (.xferFail e) ∈ evs)) := by
  cases hr : s.ready with
  | false =>
    rw [exec_of_not_ready hr] at hx
    cases hx
    exact ⟨⟨rfl, rfl, rfl⟩, .inl rfl⟩
  | true =>
    rcases exec_of_ready hr i with ⟨r, -, -, hx'⟩ | ⟨-, hi', -⟩ | ⟨hi', -⟩
    · rw [hx'] at hx
      cases hx
      exact beginRequest_shadow r s
    · simp [hi] at hi'
    · simp [hi] at hi'

/-- Settles O55: the clauses of the frame about the shadow registers, and what one request does to them. -/
theorem shadowStateFrame : Obligations.ShadowStateFrame := by
  intro s t i hx
  have h := exec_registerFrame hx
  exact ⟨h.dc, h.em, h.fs, h.init, exec_shadow_of_not_pseudo hx⟩

/-! ## The enable line (R34, R105, R194) -/

theorem play_out_of_completed {evs : List Event} {ans : List Answer} {out : Byte}
    (h : (play evs ans out).ending = .completed) : (play evs ans out).out = expOutOf evs out := by
  induction evs generalizing ans out with
  | nil => rfl
  | cons ev evs ih =>
    cases ev with
    | xfer a b =>
      rcases ans with _ | ⟨_ | ⟨e, l⟩, rest⟩
      · simp at h
      · exact ih (by simpa using h)
      · simp at h
    | xfail a b e => exact ih (by simpa [play] using h)
    | wait n => exact ih (by simpa using h)
    | rsp r => exact ih (by simpa using h)

theorem blMask_and_en {p : PinMap} (h : p.wf = true) (bl : Bool) : blMask p bl &&& p.pEn = 0 := by
  obtain ⟨-, -, -, -, -, -, hbl, -⟩ := (PinMap.wf_iff p).mp h
  cases bl with
  | false => simp [blMask]
  | true => rw [BitVec.and_comm]; exact hbl

/-- The last byte of every request has `P_EN` clear (R101). -/
theorem expOutOf_encEvents_and_en {c : Config} (h : c.pins.wf = true) (bl : Bool) (r : Request) (out : Byte) :
    expOutOf (encEvents c bl r) out &&& c.pins.pEn = 0 := by
  have hm := blMask_and_en h
  have hp := place_and_en h
  cases r with
  | xwr => exact hm bl
  | blw b => exact hm b
  | nib n => exact or_and_zero (hp n) (hm bl)
  | cmd v => exact or_and_zero (hp (loNibble v)) (hm bl)
  | dat v => exact or_and_zero (or_and_zero (hp (loNibble v)) (mode_and_en h (.dat v))) (hm bl)

/-- From `s` on: the block is busy, or a transfer has failed, or the enable line is low. -/
def EnableLowOrFailed (s t : State) : Prop :=
  t.cfg = s.cfg ∧ ∃ evs, t.trace = s.trace ++ evs ∧
    (t.busy = true ∨ (∃ e, .rsp (.xferFail e) ∈ evs) ∨ t.expOut &&& s.cfg.pins.pEn = 0)

theorem EnableLowOrFailed.runRequest {s u : State} (h : EnableLowOrFailed s u) (hw : s.cfg.pins.wf = true)
    (r : Request) : EnableLowOrFailed s (runRequest r u) := by
  obtain ⟨hcfg, evs, htrace, -⟩ := h
  rw [runRequest_eq (hcfg ▸ hw)]
  rcases hend : (u.requestPlay r).ending with _ | e | _
  · have hout : (u.requestPlay r).out = _ := play_out_of_completed hend
    refine ⟨hcfg, evs ++ (u.requestPlay r).events ++ [.rsp .ok], by simp [State.settle, State.played, htrace],
      .inr (.inr ?_)⟩
    change (u.requestPlay r).out &&& _ = 0
    rw [hout, ← hcfg]
    exact expOutOf_encEvents_and_en (hcfg ▸ hw) _ _ _
  · exact ⟨hcfg, evs ++ (u.requestPlay r).events ++ [.rsp (.xferFail e)],
      by simp [State.settle, State.played, takeXferFail, takeError, htrace], .inr (.inl ⟨e, by simp⟩)⟩
  · exact ⟨hcfg, evs ++ (u.requestPlay r).events, by simp [State.settle, State.played, htrace], .inl rfl⟩

theorem EnableLowOrFailed.perform {s u : State} (h : EnableLowOrFailed s u) (hw : s.cfg.pins.wf = true)
    (a : HostAction) : EnableLowOrFailed s (perform a u) := by
  cases a with
  | request r => exact h.runRequest hw r
  | hwait n =>
    obtain ⟨hcfg, evs, htrace, hlow⟩ := h
    exact ⟨hcfg, evs ++ [.wait n], by simp [Machine.perform, waitUs, htrace],
      by simpa [Machine.perform, waitUs] using hlow⟩
  | _ => exact h

/-- Settles O56: each request that completes ends with the enable line low, and nothing else writes the expander. -/
theorem enableLowWhenIdleWithoutFailure : Obligations.EnableLowWhenIdleWithoutFailure := by
  intro s t i evs hready hw hlow hx hb htrace hfail
  have hs : EnableLowOrFailed s s := ⟨rfl, [], by simp, .inr (.inr hlow)⟩
  obtain ⟨-, evs', htrace', h⟩ := exec_keeps hx (fun _ => hs) hs fun acts _ => {
    setHost := fun _ _ h => h
    accept := fun _ _ _ ⟨hcfg, before, hbefore, _⟩ => ⟨hcfg, before, hbefore, .inl rfl⟩
    perform := fun _ a _ h => h.perform hw a }
  obtain rfl : evs = evs' := List.append_cancel_left (htrace.symm.trans htrace')
  rcases h with h | ⟨e, he⟩ | h
  · simp [hb] at h
  · exact absurd he (hfail e)
  · exact h

end Sys2Proof.Machine

namespace Sys2Proof.Machine

open Relation (ReflTransGen)

/-! ## The bus rule (R40, R66) -/

/-- A bus event is a write to `I2C_ADDR` of a byte of the sequence in progress, after the merge. -/
def Event.OfSequence (s : State) : Event → Prop
  | .xfer a b | .xfail a b _ => a = s.cfg.i2cAddr ∧ ∃ d, .transfer d ∈ s.ops ∧ b = merge s.cfg.pins s.bl d
  | .wait _ | .rsp _ => True

theorem MicroOp.event_ofSequence {s : State} {op : MicroOp} (h : op ∈ s.ops) :
    (op.event s.cfg s.bl).OfSequence s := by
  cases op with
  | wait n => trivial
  | transfer d => exact ⟨rfl, d, h, rfl⟩

theorem runOp_done_trace {op : MicroOp} {s t : State} (h : runOp op s = .done t) :
    t.trace = s.trace ++ [op.event s.cfg s.bl] := by
  cases op with
  | wait n => cases h; rfl
  | transfer d =>
    rcases hans : s.answers with _ | ⟨_ | ⟨e, l⟩, rest⟩ <;> simp only [runOp, expanderWrite, i2cWrite, hans] at h <;>
      cases h
    rfl

theorem runOp_failed_trace {op : MicroOp} {s t : State} {e : ErrVal} (h : runOp op s = .failed e t) :
    ∃ d, op = .transfer d ∧ t.trace = s.trace ++ [.xfail s.cfg.i2cAddr (merge s.cfg.pins s.bl d) e] := by
  cases op with
  | wait n => cases h
  | transfer d =>
    rcases hans : s.answers with _ | ⟨_ | ⟨e', l⟩, rest⟩ <;> simp only [runOp, expanderWrite, i2cWrite, hans] at h <;>
      cases h
    exact ⟨d, rfl, rfl⟩

/-- What the block's own step puts on the bus is of the sequence in progress. -/
theorem microStep_trace (s : State) :
    ∃ evs, (microStep s).trace = s.trace ++ evs ∧ ∀ ev ∈ evs, ev.OfSequence s := by
  rcases microStep_cases s with ⟨-, hm⟩ | ⟨op, ops, hrem, hm⟩
  · exact ⟨[], by simp [hm]⟩
  · have hop : op ∈ s.ops := List.mem_of_mem_drop (i := s.phase.toNat) (by rw [← State.remaining, hrem]; simp)
    rcases hm with ⟨t, hrun, hm⟩ | ⟨e, t, hrun, hm⟩ | ⟨-, hm⟩
    · have ht := runOp_done_trace hrun
      have hev := MicroOp.event_ofSequence hop
      by_cases hops : ops = []
      · refine ⟨[op.event s.cfg s.bl, .rsp .ok], by simp [hm, hops, ht], ?_⟩
        simpa [Event.OfSequence] using hev
      · exact ⟨[op.event s.cfg s.bl], by simp [hm, hops, ht], by simpa using hev⟩
    · obtain ⟨d, rfl, ht⟩ := runOp_failed_trace hrun
      refine ⟨[.xfail s.cfg.i2cAddr (merge s.cfg.pins s.bl d) e, .rsp (.xferFail e)],
        by simp [hm, takeXferFail, takeError, ht], ?_⟩
      simpa [Event.OfSequence] using ⟨d, hop, rfl⟩
    · exact ⟨[], by simp [hm]⟩

/-- The transfers of a nibble write: its byte, with `P_EN` and without (R91, R92). -/
theorem transfer_mem_write4 {c : Config} {d x : Byte} (h : .transfer x ∈ write4 c d) :
    x = d ∨ x = d ||| c.pins.pEn ∨ x = d &&& ~~~c.pins.pEn := by
  simpa [write4, pulseEnable] using h

theorem write4_and_rw {c : Config} (hw : c.pins.wf = true) {d x : Byte} (hd : d &&& c.pins.pRw = 0)
    (h : .transfer x ∈ write4 c d) : x &&& c.pins.pRw = 0 := by
  obtain ⟨-, -, -, -, hen, -⟩ := (PinMap.wf_iff _).mp hw
  rcases transfer_mem_write4 h with rfl | rfl | rfl
  · exact hd
  · exact or_and_zero hd (by rw [BitVec.and_comm]; exact hen)
  · rw [BitVec.and_assoc, BitVec.and_comm (~~~_), ← BitVec.and_assoc, hd]
    exact BitVec.zero_and

/-- No byte of a sequence of R105 has the `RW` bit, when the mode bits do not have it (R66). -/
theorem opSequence_and_rw {c : Config} (hw : c.pins.wf = true) {k : SeqKind} {v mode d : Byte}
    (hm : mode &&& c.pins.pRw = 0) (h : .transfer d ∈ opSequence c k v mode) : d &&& c.pins.pRw = 0 := by
  have hp (n : Nibble) : (place c.pins n ||| mode) &&& c.pins.pRw = 0 := or_and_zero (place_and_rw hw n) hm
  cases k with
  | zero =>
    obtain rfl : d = 0 := by simpa [opSequence] using h
    exact BitVec.zero_and
  | nibble => exact write4_and_rw hw (hp _) h
  | byte => exact (List.mem_append.mp h).elim (write4_and_rw hw (hp _)) (write4_and_rw hw (hp _))

theorem blMask_and_rw {p : PinMap} (h : p.wf = true) (bl : Bool) : blMask p bl &&& p.pRw = 0 := by
  obtain ⟨-, -, -, -, -, hbl, -⟩ := (PinMap.wf_iff p).mp h
  cases bl with
  | false => simp [blMask]
  | true => rw [BitVec.and_comm]; exact hbl

/-- The mode bits latched with the request in progress do not have the `RW` bit. -/
theorem State.Inv.latchM_and_rw {s : State} (h : s.Inv) (hb : s.busy = true) : s.latchM &&& s.cfg.pins.pRw = 0 := by
  obtain ⟨-, hrs, -⟩ := (PinMap.wf_iff _).mp (Config.pins_wf h.cfgWf)
  rcases h.mode hb with hm | ⟨hm, -⟩ <;> rw [hm]
  · exact BitVec.zero_and
  · exact hrs

theorem Event.OfSequence.onBus {s : State} (h : s.Inv) (hb : s.busy = true) {ev : Event} (hev : ev.OfSequence s) :
    ev.onBus s.cfg := by
  have hw := Config.pins_wf h.cfgWf
  have hbyte : ∀ d, .transfer d ∈ s.ops → merge s.cfg.pins s.bl d &&& s.cfg.pins.pRw = 0 := fun d hd =>
    or_and_zero (opSequence_and_rw hw (h.latchM_and_rw hb) hd) (blMask_and_rw hw s.bl)
  cases ev with
  | xfer a b => obtain ⟨ha, d, hd, rfl⟩ := hev; exact ⟨ha, hbyte d hd⟩
  | xfail a b e => obtain ⟨ha, d, hd, rfl⟩ := hev; exact ⟨ha, hbyte d hd⟩
  | wait n => trivial
  | rsp r => trivial

/-- Every bus event of the trace keeps to the rule of the bus. -/
def State.BusRule (s : State) : Prop := ∀ e ∈ s.trace, e.onBus s.cfg

theorem State.BusRule.append {s t : State} (h : s.BusRule) (hcfg : t.cfg = s.cfg) {evs : List Event}
    (htrace : t.trace = s.trace ++ evs) (hevs : ∀ ev ∈ evs, ev.onBus s.cfg) : t.BusRule := by
  rw [State.BusRule, hcfg, htrace]
  exact fun ev hev => (List.mem_append.mp hev).elim (h ev) (hevs ev)

/-- Only a micro-operation of the block puts anything on the bus. -/
theorem Move.keeps_busRule {s t : State} (hmove : Move s t) (hs : s.Inv) (h : s.BusRule) : t.BusRule := by
  cases hmove with
  | block hb =>
    obtain ⟨evs, htrace, hevs⟩ := microStep_trace s
    exact h.append (microStep_keeps_cfg_and_trace s).1 htrace fun ev hev => (hevs ev hev).onBus hs hb
  | @act a rest hb hh =>
    cases a with
    | hwait n => exact h.append (evs := [.wait n]) rfl rfl (by simp [Event.onBus])
    | _ => exact h
  | reject hr => exact h.append (evs := [.rsp .illegalReq]) rfl rfl (by simp [Event.onBus])
  | hostWait n hr => exact h.append (evs := [.wait n]) rfl rfl (by simp [Event.onBus])
  | _ => exact h

theorem moves_keep_busRule {s t : State} (hmoves : ReflTransGen Move s t) (hs : s.Inv) (h : s.BusRule) :
    t.BusRule := by
  induction hmoves with
  | refl => exact h
  | tail hbefore hmove ih => exact hmove.keeps_busRule (moves_keep_inv hbefore hs) ih

/-- Settles O51: a step is a chain of moves, and each move keeps the rule of the bus where the invariant holds. -/
theorem stepKeepsTheBusRule : Obligations.StepKeepsTheBusRule :=
  fun _ _ hs h hstep => moves_keep_busRule (step_moves hstep) hs h

end Sys2Proof.Machine

namespace Sys2Proof.Machine

/-! ## What the host presents (R51, R61, R73) -/

theorem runItem_of_instr {item : HostItem} {s : State} {i : Instr} (h : readItem s.cfg.cmd item = .instr i) :
    runItem item s = exec i s := by
  simp only [runItem, h]

/-- Settles O8: the front item is taken, and each kind of item is read by its own equation. -/
theorem stepRunsTheFrontItem : Obligations.StepRunsTheFrontItem := by
  intro s rest hb hh hr
  have hfront {item : HostItem} {i : Instr} (hp : s.program = item :: rest)
      (hread : readItem s.cfg.cmd item = .instr i) : step s = exec i (s.setProgram rest) := by
    rw [step_of_item hr hb hh hp]
    exact runItem_of_instr hread
  refine ⟨fun w i hp hw => hfront hp ?_, fun b i hp hcommand => hfront hp ?_, fun b e hp hcommand => hfront hp ?_,
    fun i hp => hfront hp rfl, fun n hp => step_of_item hr hb hh hp⟩
  · simp only [readItem, hw]
  · simp only [readItem, hcommand]
  · simp only [readItem, hcommand]

/-! ## Every instruction is its expansion (R49, R74, R101) -/

/-- Run as a request of its own or as the only one of a routine, a request leaves the same machine, up to what the host
is said to be doing. -/
theorem runRoutine_single_request {s : State} (hw : s.cfg.pins.wf = true) (r : Request) :
    ∃ h, runRoutine [.request r] s = (runRequest r s).setHost h := by
  rcases hend : (s.requestPlay r).ending with _ | e | _
  · rw [runRoutine_request_completed hw [] hend, runRequest_completed hw hend]
    exact ⟨.direct, rfl⟩
  · rw [runRoutine_request_failed hw [] hend, runRequest_failed hw hend]
    exact ⟨.direct, rfl⟩
  · rw [runRoutine_request_waiting hw [] hend, runRequest_waiting hw hend]
    exact ⟨.routine [], rfl⟩

/-- At the whole grain an instruction runs its expansion as a routine, up to what the host is said to be doing. -/
theorem exec_runs_expansion {s : State} {i : Instr} {acts : List HostAction} (hready : s.ready = true)
    (hgrain : s.grain = .whole) (hw : s.cfg.pins.wf = true) (he : expansion s i = some acts) :
    ∃ t h, exec i s = .next t ∧ runRoutine acts s = t.setHost h := by
  rcases exec_of_ready hready i with ⟨r, -, he', hx⟩ | ⟨acts', -, he', hx⟩ | ⟨-, he', -⟩ <;> rw [he] at he' <;>
    cases he'
  · obtain ⟨h, hrun⟩ := runRoutine_single_request hw r
    exact ⟨runRequest r s, h, by rw [hx, beginRequest_whole hgrain], hrun⟩
  · exact ⟨runRoutine acts s, (runRoutine acts s).host, by rw [hx, beginRoutine_whole hgrain], rfl⟩

/-- Settles O45: an instruction runs its expansion as a routine, and a routine plays its events. -/
theorem everyInstructionIsItsExpansion : Obligations.EveryInstructionIsItsExpansion := by
  intro s i acts p hready hgrain hw he hp
  obtain ⟨hb, -⟩ := s.ready_iff.mp hready
  obtain ⟨t, h, hx, hrun⟩ := exec_runs_expansion hready hgrain hw he
  obtain ⟨htrace, hans, hout, hcfg, hrst, -, hbusy, -⟩ := runRoutine_play acts hb hw hp.symm
  rw [hrun] at htrace hans hout hcfg hrst hbusy
  exact ⟨t, hx, htrace, hans, hout, hbusy, hcfg, hrst⟩

/-! ## A transfer the master has not answered (R54) -/

/-- A request that is still in progress keeps the host where it is. -/
theorem resume_of_busy {s : State} (h : (runBlock s).busy = true) : resume s = runBlock s := by
  simp [resume, h]

/-- A request the host has issued by itself is all there is to take up. -/
theorem resume_of_direct {s : State} (h : (runBlock s).host = .direct) : resume s = runBlock s := by
  simp [resume, h]

/-- A request of a routine that has been answered is followed by the rest of the routine. -/
theorem resume_of_routine {s : State} {rest : List HostAction} (hb : (runBlock s).busy = false)
    (hh : (runBlock s).host = .routine rest) : resume s = runRoutine rest (runBlock s) := by
  simp [resume, hb, hh]

theorem runBlock_of_unanswered {s : State} {d : Byte} {ops : List MicroOp} (hrem : s.remaining = .transfer d :: ops)
    (h : s.answers = []) : runBlock s = s := by
  simp only [runBlock, hrem, runOps, runOp, expanderWrite, i2cWrite, h]

/-- Settles O13: neither grain gets past a transfer without an answer. -/
theorem unansweredBlockStaysBusy : Obligations.UnansweredBlockStaysBusy := by
  intro s d rest hrst hb hrem hnone
  rw [step_of_busy hrst hb (s.remaining_ne_nil_iff.mp (by simp [hrem]))]
  cases hg : s.grain with
  | micro => rw [goOn_micro hg, microStep_of_unanswered hrem hnone]
  | whole =>
    have hrun := runBlock_of_unanswered hrem hnone
    rw [goOn_whole hg, resume_of_busy (by rw [hrun]; exact hb), hrun]

/-! ## Waiting for the master (logs 1, 2) -/

/-- The master has `late` answers more to give. -/
def State.moreAnswers (s : State) (late : List Answer) : State := { s with answers := s.answers ++ late }

theorem runOp_done_moreAnswers {op : MicroOp} {s t : State} (late : List Answer) (h : runOp op s = .done t) :
    runOp op (s.moreAnswers late) = .done (t.moreAnswers late) := by
  cases op with
  | wait n => cases h; rfl
  | transfer d =>
    rcases hans : s.answers with _ | ⟨_ | ⟨e, l⟩, rest⟩ <;>
      simp only [runOp, expanderWrite, i2cWrite, State.moreAnswers, hans, List.cons_append] at h ⊢ <;> cases h
    rfl

theorem runOp_failed_moreAnswers {op : MicroOp} {s t : State} {e : ErrVal} (late : List Answer)
    (h : runOp op s = .failed e t) : runOp op (s.moreAnswers late) = .failed e (t.moreAnswers late) := by
  cases op with
  | wait n => cases h
  | transfer d =>
    rcases hans : s.answers with _ | ⟨_ | ⟨e', l⟩, rest⟩ <;>
      simp only [runOp, expanderWrite, i2cWrite, State.moreAnswers, hans, List.cons_append] at h ⊢ <;> cases h
    rfl

theorem runOp_waiting {op : MicroOp} {s : State} (h : runOp op s = .waiting) : s.answers = [] := by
  cases op with
  | wait n => cases h
  | transfer d =>
    rcases hans : s.answers with _ | ⟨_ | ⟨e, l⟩, rest⟩
    · rfl
    all_goals simp only [runOp, expanderWrite, i2cWrite, hans] at h; cases h

/-- The block of `t` waits at a transfer for an answer of the master. -/
structure State.Waits (t : State) : Prop where
  busy : t.busy = true
  answers : t.answers = []
  inside : t.remaining ≠ []

/-- Answers that come late are left over by a run that ends without them, and take one that waits to where it comes to
when they are there from the start. -/
theorem runOps_moreAnswers (late : List Answer) {ops : List MicroOp} {s : State} (hb : s.busy = true)
    (hrem : s.remaining = ops) :
    ((runOps ops s).busy = false ∧ runOps ops (s.moreAnswers late) = (runOps ops s).moreAnswers late) ∨
    ((runOps ops s).Waits ∧ runBlock ((runOps ops s).moreAnswers late) = runOps ops (s.moreAnswers late)) := by
  induction ops generalizing s with
  | nil => exact .inl ⟨rfl, rfl⟩
  | cons op ops ih =>
    cases hrun : runOp op s with
    | done t =>
      have hlate := runOp_done_moreAnswers late hrun
      obtain ⟨p, rfl⟩ := runOp_done hrun
      simp only [runOps, hrun, hlate]
      exact ih hb (State.remaining_played_succ hrem p)
    | failed e t =>
      simp only [runOps, hrun, runOp_failed_moreAnswers late hrun]
      exact .inl ⟨rfl, rfl⟩
    | waiting =>
      have hstay : runOps (op :: ops) s = s := by simp only [runOps, hrun]
      have hrem' : (s.moreAnswers late).remaining = op :: ops := hrem
      rw [hstay]
      exact .inr ⟨⟨hb, runOp_waiting hrun, by simp [hrem]⟩, by rw [runBlock, hrem']⟩

theorem runBlock_moreAnswers (late : List Answer) {s : State} (hb : s.busy = true) :
    ((runBlock s).busy = false ∧ runBlock (s.moreAnswers late) = (runBlock s).moreAnswers late) ∨
    ((runBlock s).Waits ∧ runBlock ((runBlock s).moreAnswers late) = runBlock (s.moreAnswers late)) :=
  runOps_moreAnswers late hb rfl

/-- `t` waits for the master, and with the answers `late` goes on to `u`. -/
structure WaitsFor (late : List Answer) (t u : State) : Prop extends t.Waits where
  goesOn : resume (t.moreAnswers late) = u

/-- A request the host has issued by itself. -/
theorem runRequest_waitsFor (late : List Answer) {r : Request} {s : State} (hh : s.host = .direct)
    (hbusy : (runRequest r s).busy = true) :
    WaitsFor late (runRequest r s) (runRequest r (s.moreAnswers late)) := by
  have hdirect : (runRequest r (s.moreAnswers late)).host = .direct :=
    (runRequest_host r (s.moreAnswers late)).elim id (·.trans hh)
  rcases runBlock_moreAnswers late (s := s.accept r) rfl with ⟨hidle, -⟩ | ⟨hwaits, hrun⟩
  · rw [runRequest, hidle] at hbusy
    cases hbusy
  · exact ⟨hwaits, (resume_of_direct (hrun ▸ hdirect)).trans hrun⟩

/-- A request issued inside a routine, and all that follows it. -/
theorem runRoutine_request (r : Request) (rest : List HostAction) (s : State) :
    runRoutine (.request r :: rest) s = resume ((s.setHost (.routine rest)).accept r) := by
  have hfirst : perform (.request r) (s.setHost (.routine rest)) =
      runBlock ((s.setHost (.routine rest)).accept r) := rfl
  rw [runRoutine_cons, hfirst]
  cases hbusy : (runBlock ((s.setHost (.routine rest)).accept r)).busy with
  | true => rw [resume_of_busy hbusy]
  | false =>
    rcases runRequest_host r (s.setHost (.routine rest)) with hh | hh <;> rw [runRequest] at hh
    · rw [resume_of_direct hh, hh]
    · rw [resume_of_routine hbusy hh, hh]
      rfl

/-- An action that is no request takes no answer, and the routine goes on. -/
theorem perform_of_not_request {a : HostAction} (ha : ∀ r, a ≠ .request r) (s : State) :
    (perform a s).busy = s.busy ∧ (perform a s).host = s.host ∧
    ∀ late, perform a (s.moreAnswers late) = (perform a s).moreAnswers late := by
  cases a with
  | request r => exact absurd rfl (ha r)
  | _ => exact ⟨rfl, rfl, fun _ => rfl⟩

theorem runRoutine_cons_of_not_request {a : HostAction} (ha : ∀ r, a ≠ .request r) (rest : List HostAction)
    {s : State} (hb : s.busy = false) :
    runRoutine (a :: rest) s = runRoutine rest (perform a (s.setHost (.routine rest))) := by
  obtain ⟨hbusy, hhost, -⟩ := perform_of_not_request ha (s.setHost (.routine rest))
  simp [runRoutine_cons, hbusy, hhost, hb]

theorem runBlock_host (s : State) : (runBlock s).host = .direct ∨ (runBlock s).host = s.host := by
  obtain ⟨-, -, -, -, -, -, -, -, -, hhost, -⟩ := runOps_frame s.remaining s
  exact hhost

/-- What is in progress waits with its request, or with a later one of the routine. -/
theorem resume_waitsFor (late : List Answer) {s : State} {rest : List HostAction} (hb : s.busy = true)
    (hh : s.host = .routine rest) (hbusy : (resume s).busy = true)
    (hrest : ∀ u : State, u.busy = false → (runRoutine rest u).busy = true →
      WaitsFor late (runRoutine rest u) (runRoutine rest (u.moreAnswers late))) :
    WaitsFor late (resume s) (resume (s.moreAnswers late)) := by
  rcases runBlock_moreAnswers late hb with ⟨hidle, hrun⟩ | ⟨hwaits, hrun⟩
  · rcases runBlock_host s with hdirect | hkept
    · rw [resume_of_direct hdirect, hidle] at hbusy
      cases hbusy
    · have hroutine := hkept.trans hh
      have hgo := resume_of_routine hidle hroutine
      rw [hgo] at hbusy ⊢
      rw [resume_of_routine (rest := rest) (by rw [hrun]; exact hidle) (by rw [hrun]; exact hroutine), hrun]
      exact hrest _ hidle hbusy
  · rw [resume_of_busy hwaits.busy]
    exact ⟨hwaits, by simp only [resume, hrun]⟩

/-- A routine waits with the request it waits for, and goes on with it. -/
theorem runRoutine_waitsFor (late : List Answer) {acts : List HostAction} {s : State} (hb : s.busy = false)
    (hbusy : (runRoutine acts s).busy = true) :
    WaitsFor late (runRoutine acts s) (runRoutine acts (s.moreAnswers late)) := by
  induction acts generalizing s with
  | nil =>
    rw [runRoutine_nil, State.setHost_busy, hb] at hbusy
    cases hbusy
  | cons a rest ih =>
    by_cases ha : ∃ r, a = .request r
    · obtain ⟨r, rfl⟩ := ha
      rw [runRoutine_request] at hbusy
      rw [runRoutine_request, runRoutine_request]
      exact resume_waitsFor late (s := (s.setHost (.routine rest)).accept r) rfl rfl hbusy fun _ => ih
    · have ha : ∀ r, a ≠ .request r := not_exists.mp ha
      obtain ⟨hsame, -, hlate⟩ := perform_of_not_request ha (s.setHost (.routine rest))
      have hgo : runRoutine (a :: rest) (s.moreAnswers late) =
          runRoutine rest ((perform a (s.setHost (.routine rest))).moreAnswers late) := by
        rw [runRoutine_cons_of_not_request ha rest (s := s.moreAnswers late) hb, ← hlate]
        rfl
      rw [runRoutine_cons_of_not_request ha rest hb] at hbusy ⊢
      rw [hgo]
      exact ih (hsame.trans hb) hbusy

theorem expansion_moreAnswers (s : State) (late : List Answer) (i : Instr) :
    expansion (s.moreAnswers late) i = expansion s i := by
  cases i <;> rfl

/-- An instruction that is left waiting goes on to the outcome it has with the late answers there from the start. -/
theorem exec_waitsFor (late : List Answer) {s t : State} {i : Instr} (hready : s.ready = true)
    (hgrain : s.grain = .whole) (hx : exec i s = .next t) (hbusy : t.busy = true) :
    ∃ u, exec i (s.moreAnswers late) = .next u ∧ WaitsFor late t u := by
  obtain ⟨hb, hh⟩ := s.ready_iff.mp hready
  have hready' : (s.moreAnswers late).ready = true := hready
  have hgrain' : (s.moreAnswers late).grain = .whole := hgrain
  have he' := expansion_moreAnswers s late i
  rcases exec_of_ready hready i with ⟨r, hi, he, hx'⟩ | ⟨acts, hi, he, hx'⟩ | ⟨-, -, e, hx'⟩ <;> rw [hx'] at hx
  · rw [beginRequest_whole hgrain] at hx
    cases hx
    exact ⟨_, by rw [exec_of_single_request hready' hi (he'.trans he), beginRequest_whole hgrain'],
      runRequest_waitsFor late hh hbusy⟩
  · rw [beginRoutine_whole hgrain] at hx
    cases hx
    exact ⟨_, by rw [exec_of_pseudo hready' hi (he'.trans he), beginRoutine_whole hgrain'],
      runRoutine_waitsFor late hb hbusy⟩
  · cases hx

/-- No instruction writes the grain or the reset line. -/
theorem exec_grain_rst {i : Instr} {s t : State} (hx : exec i s = .next t) : t.grain = s.grain ∧ t.rst = s.rst := by
  refine exec_keeps (P := fun u => u.grain = s.grain ∧ u.rst = s.rst) hx (fun _ => ⟨rfl, rfl⟩) ⟨rfl, rfl⟩ fun acts _ => {
    setHost := fun _ _ h => h
    accept := fun _ _ _ h => h
    perform := fun u a _ h => ?_ }
  cases a with
  | request r =>
    obtain ⟨-, -, -, -, -, -, -, -, hrst, -, -, hgrain, -⟩ := runOps_frame (u.accept r).remaining (u.accept r)
    exact ⟨hgrain.trans h.1, hrst.trans h.2⟩
  | _ => exact h

/-- Settles O57: the next step of an instruction left waiting goes on with its request, and with the routine that holds
it. -/
theorem waitingForTheMasterChangesNothing : Obligations.WaitingForTheMasterChangesNothing := by
  rintro s t i _ late hready hgrain hrst rfl hx hbusy
  obtain ⟨u, hu, hwaits⟩ := exec_waitsFor late hready hgrain hx hbusy
  obtain ⟨hgrain', hrst'⟩ := exec_grain_rst hx
  calc step { t with answers := late }
      = step (t.moreAnswers late) := by rw [State.moreAnswers, hwaits.answers, List.nil_append]
    _ = .next (goOn (t.moreAnswers late)) :=
        step_of_busy (hrst'.trans hrst) hwaits.busy (t.remaining_ne_nil_iff.mp hwaits.inside)
    _ = .next u := by rw [goOn_whole (s := t.moreAnswers late) (hgrain'.trans hgrain), hwaits.goesOn]
    _ = exec i { s with answers := s.answers ++ late } := hu.symm

end Sys2Proof.Machine

namespace Sys2Proof.Machine

/-! ## Request words (R60, R61, R63) -/

@[simp] theorem reqOp_append (op : BitVec 3) (a : Byte) : reqOp (op ++ a) = op :=
  BitVec.extractLsb'_append_eq_left

@[simp] theorem reqArg_append (op : BitVec 3) (a : Byte) : reqArg (op ++ a) = a :=
  BitVec.extractLsb'_append_eq_right

/-- A request word is its two fields. -/
theorem reqOp_append_reqArg (w : ReqWord) : reqOp w ++ reqArg w = w :=
  BitVec.extractLsb'_append_extractLsb'

/-- An argument whose upper bits are zero is a nibble. -/
theorem zero_append_loNibble {a : Byte} (h : a.extractLsb' 4 4 = 0) : 0#4 ++ a.extractLsb' 0 4 = a := by
  have hsplit : a.extractLsb' 4 4 ++ a.extractLsb' 0 4 = a := BitVec.extractLsb'_append_extractLsb'
  rwa [h] at hsplit

/-- An argument whose upper bits are zero is one bit. -/
theorem zero_append_bit {a : Byte} (h : a.extractLsb' 1 7 = 0) : 0#7 ++ BitVec.ofBool (a.getLsbD 0) = a := by
  have hsplit : a.extractLsb' 1 7 ++ a.extractLsb' 0 1 = a := BitVec.extractLsb'_append_extractLsb'
  have hbit : a.extractLsb' 0 1 = BitVec.ofBool (a.getLsbD 0) := by
    ext i hi
    obtain rfl : i = 0 := by omega
    simp
  rwa [h, hbit] at hsplit

theorem decodeWord_of_encodeWord {i : Instr} {w : ReqWord} (h : encodeWord i = some w) : decodeWord w = .ok i := by
  cases i with
  | cmd v => cases h; simp [decodeWord]
  | dat v => cases h; simp [decodeWord]
  | nib n =>
    cases h
    have hhi : (0#4 ++ n).extractLsb' 4 4 = 0 := BitVec.extractLsb'_append_eq_left
    have hlo : (0#4 ++ n).extractLsb' 0 4 = n := BitVec.extractLsb'_append_eq_right
    simp [decodeWord, hhi, hlo]
  | blw b => cases h; cases b <;> rfl
  | xwr => cases h; rfl
  | _ => cases h

theorem encodeWord_of_decodeWord {w : ReqWord} {i : Instr} (h : decodeWord w = .ok i) : encodeWord i = some w := by
  rw [← reqOp_append_reqArg w]
  simp only [decodeWord] at h
  split_ifs at h with h0 h1 h2 hn h3 hb h4 hx <;> cases h
  · rw [h0]; rfl
  · rw [h1]; rfl
  · rw [h2, encodeWord, zero_append_loNibble hn]; rfl
  · rw [h3, encodeWord, zero_append_bit hb]; rfl
  · rw [h4, hx]; rfl

/-- Settles O2: one direction by the branches of the decoder, the other by the rows of the encoder. -/
theorem requestWordsDecodeAndEncodeAgree : Obligations.RequestWordsDecodeAndEncodeAgree :=
  fun _ _ => ⟨encodeWord_of_decodeWord, decodeWord_of_encodeWord⟩

/-! ## Command bytes (R70, R71, R76) -/

/-- A byte that matches a row is its code with the row's field bits. -/
theorem or_of_matchesRow {b fields code : Byte} (h : matchesRow b fields code = true) :
    code ||| (b &&& fields) = b := by
  obtain rfl : b &&& ~~~fields = code := by simpa [matchesRow] using h
  rw [← BitVec.and_or_distrib_left, BitVec.or_comm, BitVec.or_not_self, BitVec.and_allOnes]

/-- A flag of one bit is read as it was written (R71). -/
theorem flagMask_of_and {mask : Byte} (hm : oneHot mask = true) (b : Byte) :
    flagMask mask (b &&& mask != 0) = b &&& mask := by
  simp only [oneHot, List.contains_eq_mem, List.mem_cons, List.not_mem_nil, or_false, decide_eq_true_eq] at hm
  rcases hm with h | h | h | h | h | h | h | h <;> subst h <;> decide +revert

theorem cgramByte_of_matchesRow {t : CmdSet} {b : Byte} (h : matchesRow b 0x3F t.setCgramAddr = true) :
    cgramByte t (b.extractLsb' 0 6) = b := by
  have hfield : (b.extractLsb' 0 6).setWidth 8 = b &&& 0x3F := by clear h; decide +revert
  rw [cgramByte, hfield, or_of_matchesRow h]

theorem ddramByte_of_matchesRow {t : CmdSet} {b : Byte} (h : matchesRow b 0x7F t.setDdramAddr = true) :
    ddramByte t (b.extractLsb' 0 7) = b := by
  have hfield : (b.extractLsb' 0 7).setWidth 8 = b &&& 0x7F := by clear h; decide +revert
  rw [ddramByte, hfield, or_of_matchesRow h]

/-- Every flag value of the command set is a single bit, as the listed ones are (R71). -/
structure SingleBitFlags (t : CmdSet) : Prop where
  entryLeft : oneHot t.entryLeft = true
  entryShiftIncrement : oneHot t.entryShiftIncrement = true
  displayOn : oneHot t.displayOn = true
  cursorOn : oneHot t.cursorOn = true
  blinkOn : oneHot t.blinkOn = true
  displayMove : oneHot t.displayMove = true
  moveRight : oneHot t.moveRight = true
  mode8Bit : oneHot t.mode8Bit = true
  lines2 : oneHot t.lines2 = true
  dots5x10 : oneHot t.dots5x10 = true

theorem singleBitFlags_standard : SingleBitFlags CmdSet.standard :=
  ⟨rfl, rfl, rfl, rfl, rfl, rfl, rfl, rfl, rfl, rfl⟩

/-- What a byte is read as encodes to that byte. -/
theorem encodeCommand_of_decodeCommand {t : CmdSet} (ht : SingleBitFlags t) {b : Byte} {i : Instr}
    (h : decodeCommand t b = .ok i) : encodeCommand t i = some b := by
  unfold decodeCommand at h
  split_ifs at h with hclear hhome hentry hdisplay hshift hfunction hcgram hddram <;> cases h <;>
    simp only [encodeCommand, Option.some.injEq]
  · simpa using or_of_matchesRow hclear
  · simpa using or_of_matchesRow hhome
  · rw [entryModeByte, flagMask_of_and ht.entryLeft, flagMask_of_and ht.entryShiftIncrement,
      ← BitVec.and_or_distrib_left]
    exact or_of_matchesRow hentry
  · rw [displayControlByte, flagMask_of_and ht.displayOn, flagMask_of_and ht.cursorOn, flagMask_of_and ht.blinkOn,
      ← BitVec.and_or_distrib_left, ← BitVec.and_or_distrib_left]
    exact or_of_matchesRow hdisplay
  · rw [cursorShiftByte, flagMask_of_and ht.displayMove, flagMask_of_and ht.moveRight, ← BitVec.and_or_distrib_left]
    exact or_of_matchesRow hshift
  · rw [functionSetByte, flagMask_of_and ht.mode8Bit, flagMask_of_and ht.lines2, flagMask_of_and ht.dots5x10,
      ← BitVec.and_or_distrib_left, ← BitVec.and_or_distrib_left]
    exact or_of_matchesRow hfunction
  · exact cgramByte_of_matchesRow hcgram
  · exact ddramByte_of_matchesRow hddram

/-- Under the listed codes no earlier row takes the byte of a later one. -/
theorem decodeCommand_of_encodeCommand {i : Instr} {b : Byte} (h : encodeCommand CmdSet.standard i = some b) :
    decodeCommand CmdSet.standard b = .ok i := by
  cases i with
  | clearDisplay => cases h; rfl
  | returnHome => cases h; rfl
  | entryModeSet i s => cases h; decide +revert
  | displayControl d c b => cases h; decide +revert
  | cursorShift m r => cases h; decide +revert
  | functionSet l n f => cases h; decide +revert
  | setCgramAddr a => cases h; decide +revert
  | setDdramAddr a => cases h; decide +revert
  | _ => cases h

/-- Settles O3: a byte is its row's code with its flag bits, and no two rows of the listed set share a byte. -/
theorem commandBytesDecodeAndEncodeAgree : Obligations.CommandBytesDecodeAndEncodeAgree :=
  fun _ _ => ⟨encodeCommand_of_decodeCommand singleBitFlags_standard, decodeCommand_of_encodeCommand⟩

/-! ## Bytes (R60, R76) -/

/-- The two bytes of a request word are read as the word. -/
theorem decodeBytes_of_word (w : ReqWord) :
    decodeBytes [w.extractLsb' 0 8, 0#5 ++ w.extractLsb' 8 3] = decodeWord w := by
  have hzero : (0#5 ++ w.extractLsb' 8 3).extractLsb' 3 5 = 0 := BitVec.extractLsb'_append_eq_left
  have hop : (0#5 ++ w.extractLsb' 8 3).extractLsb' 0 3 = w.extractLsb' 8 3 := BitVec.extractLsb'_append_eq_right
  have hword : w.extractLsb' 8 3 ++ w.extractLsb' 0 8 = w := BitVec.extractLsb'_append_extractLsb'
  rw [decodeBytes, if_pos hzero, hop, hword]

/-- The `PSEUDO` rows are the instructions with neither a request word nor a command byte (log 15). -/
theorem isPseudo_iff (t : CmdSet) (i : Instr) :
    i.isPseudo = true ↔ encodeWord i = none ∧ encodeCommand t i = none := by
  cases i <;> simp [Instr.isPseudo, encodeWord, encodeCommand]

/-- Settles O4: an instruction of the encoded formats has a request word or a command byte, and each is read back. -/
theorem everyInstructionDecodesFromItsWord : Obligations.EveryInstructionDecodesFromItsWord := by
  intro i
  have hpseudo := isPseudo_iff CmdSet.standard i
  cases hw : encodeWord i with
  | some w =>
    have hi : i.isPseudo = false := by simpa [hw] using hpseudo
    exact ⟨fun _ => ⟨_, by simp only [encode, hw], (decodeBytes_of_word w).trans (decodeWord_of_encodeWord hw)⟩,
      by simp [hi]⟩
  | none =>
    cases hb : encodeCommand CmdSet.standard i with
    | some b =>
      have hi : i.isPseudo = false := by simpa [hw, hb] using hpseudo
      exact ⟨fun _ => ⟨[b], by simp only [encode, hw, hb, Option.map_some], decodeCommand_of_encodeCommand hb⟩,
        by simp [hi]⟩
    | none => exact ⟨by simp [hpseudo.mpr ⟨hw, hb⟩], fun _ => by simp only [encode, hw, hb, Option.map_none]⟩

/-- Settles O1: the decoder evaluates on each word. -/
theorem tableWordsDecode : Obligations.TableWordsDecode := by
  unfold Obligations.TableWordsDecode; decide

/-- Settles O5: the encoder evaluates at every value of the operands. -/
theorem commandBytePatterns : Obligations.CommandBytePatterns := by
  unfold Obligations.CommandBytePatterns; decide

/-! ## Illegal words (R63, R163) -/

/-- The words the decoder refuses. -/
theorem decodeWord_error_iff (w : ReqWord) :
    (∃ e, decodeWord w = .error e) ↔
      (reqOp w = 0b101 ∨ reqOp w = 0b110 ∨ reqOp w = 0b111) ∨
      (reqOp w = 0b010 ∧ (reqArg w).extractLsb' 4 4 ≠ 0) ∨
      (reqOp w = 0b011 ∧ (reqArg w).extractLsb' 1 7 ≠ 0) ∨
      (reqOp w = 0b100 ∧ reqArg w ≠ 0) := by
  simp only [decodeWord]
  split_ifs with h0 h1 h2 hn h3 hb h4 hx
  · simp [h0]
  · simp [h1]
  · simp [h2, hn]
  · simpa [h2] using hn
  · simp [h3, hb]
  · simpa [h3] using hb
  · simp [h4, hx]
  · simpa [h4] using hx
  · have hop : reqOp w = 5 ∨ reqOp w = 6 ∨ reqOp w = 7 := by bv_omega
    exact iff_of_true ⟨_, rfl⟩ (.inl hop)

theorem step_of_illegal_word {s : State} {w : ReqWord} {rest : List HostItem} {e : DecodeError}
    (hr : s.rst = .released) (hb : s.busy = false) (hh : s.host = .direct) (hp : s.program = .word w :: rest)
    (hw : decodeWord w = .error e) : step s = .next (rejectIllegal (s.setProgram rest)) := by
  rw [step_of_item hr hb hh hp]
  simp only [runItem, readItem, hw]

/-- Rejecting at an idle block adds the response and drops what the host presents, and writes nothing else (R163). -/
theorem rejectIllegal_of_idle {s : State} (hb : s.busy = false) (hh : s.host = .direct) (hphase : s.phase = 0) :
    rejectIllegal s = { s with trace := s.trace ++ [.rsp .illegalReq], program := [] } := by
  calc rejectIllegal s
      = { s with
          trace := s.trace ++ [.rsp .illegalReq], program := [], busy := false, host := .direct, phase := 0 } := rfl
    _ = { s with trace := s.trace ++ [.rsp .illegalReq], program := [] } := by rw [← hb, ← hh, ← hphase]

/-- Settles O6: the decoder's branches, and the step that rejects. -/
theorem illegalWordsAreRejected : Obligations.IllegalWordsAreRejected := by
  refine ⟨decodeWord_error_iff, fun s w rest e hs hb hh hr hp hw => ⟨[], ?_⟩⟩
  rw [step_of_illegal_word hr hb hh hp hw, rejectIllegal_of_idle (s := s.setProgram rest) hb hh (hs.idle hb)]
  rfl

/-! ## Nibble assembly (R67) -/

/-- Settles O7: a byte's halves are placed as R67 says, and `sendByte` sends the high one first. -/
theorem nibbleAssemblyOfTheDefaultMap : Obligations.NibbleAssemblyOfTheDefaultMap := by
  rintro c p rfl hdata
  have hhi := place_hiNibble hdata
  have hlo := place_loNibble hdata
  refine ⟨fun v mode => by rw [sendByte, hhi, hlo], fun v => ?_, fun n => ?_⟩
  · rw [hhi, hlo]
    clear hhi hlo
    decide +revert
  · simp only [place, dataShift, hdata]
    decide +revert

/-! ## Table words (R60, R76; log 16) -/

theorem length_layBytes (nbits w : Nat) : (layBytes nbits w).length = (nbits + 7) / 8 := by
  simp [layBytes]

/-- Only one byte or two are read. -/
theorem length_of_decodeBytes {bs : List Byte} {i : Instr} (h : decodeBytes bs = .ok i) :
    bs.length = 1 ∨ bs.length = 2 := by
  unfold decodeBytes at h
  split at h
  · exact .inl rfl
  · exact .inr rfl
  · cases h

/-- The low byte and the three bits above it are the request word, where the five bits above those are zero. -/
theorem decodeBytes_two {w : Nat} {i : Instr} (hlt : w < 2 ^ 16)
    (h : decodeBytes [BitVec.ofNat 8 w, BitVec.ofNat 8 (w >>> 8)] = .ok i) :
    w < 2048 ∧ decodeWord (BitVec.ofNat 11 w) = .ok i := by
  rw [decodeBytes] at h
  split_ifs at h with hzero
  have hsmall : w < 2048 := by
    have hnat : w / 256 % 256 / 8 % 32 = 0 := by
      simpa [Nat.shiftRight_eq_div_pow] using congrArg BitVec.toNat hzero
    omega
  have hword : (BitVec.ofNat 8 (w >>> 8)).extractLsb' 0 3 ++ BitVec.ofNat 8 w = BitVec.ofNat 11 w := by
    apply BitVec.eq_of_toNat_eq
    refine (BitVec.toNat_append _ _).trans ?_
    rw [← Nat.shiftLeft_add_eq_or_of_lt (BitVec.isLt _)]
    simp only [BitVec.extractLsb'_toNat, BitVec.toNat_ofNat, Nat.shiftRight_eq_div_pow, Nat.shiftLeft_eq]
    omega
  exact ⟨hsmall, hword ▸ h⟩

/-- A table word that the reader takes is presented as an item that reads as the same instruction. -/
theorem readItem_of_decodeTableWord {nbits w : Nat} {i : Instr} (hlt : w < 2 ^ nbits)
    (h : decodeTableWord nbits w = some i) :
    ∃ item, tableItem nbits w = some item ∧ readItem CmdSet.standard item = .instr i := by
  have hbytes : decodeBytes (layBytes nbits w) = .ok i := by
    unfold decodeTableWord at h
    split at h <;> cases h
    assumption
  have hlen := length_of_decodeBytes hbytes
  rw [length_layBytes] at hlen
  rcases hlen with hlen | hlen
  · have h8 : nbits ≤ 8 := by omega
    have hlay : layBytes nbits w = [BitVec.ofNat 8 w] := by simp [layBytes, hlen]
    rw [hlay] at hbytes
    replace hbytes : decodeCommand CmdSet.standard (BitVec.ofNat 8 w) = .ok i := hbytes
    exact ⟨.command (BitVec.ofNat 8 w), if_pos h8, by simp only [readItem, hbytes]⟩
  · have h8 : ¬ nbits ≤ 8 := by omega
    have h16 : nbits ≤ 16 := by omega
    have hlay : layBytes nbits w = [BitVec.ofNat 8 w, BitVec.ofNat 8 (w >>> 8)] := by
      simp [layBytes, hlen, List.range_succ]
    rw [hlay] at hbytes
    obtain ⟨hsmall, hword⟩ := decodeBytes_two (hlt.trans_le (Nat.pow_le_pow_right (by decide) h16)) hbytes
    exact ⟨.word (BitVec.ofNat 11 w), by rw [tableItem, if_neg h8, if_pos ⟨h16, hsmall⟩],
      by simp only [readItem, hword]⟩

/-- Settles O10: the placed item is the front item, and reads as the instruction. -/
theorem placedTableWordRunsNext : Obligations.PlacedTableWordRunsNext := by
  intro s nbits w i hcmd hlt h
  obtain ⟨item, hitem, hread⟩ := readItem_of_decodeTableWord hlt h
  have hplaced : s.withFetchWord nbits w = presentItem item s := by rw [State.withFetchWord, hitem]
  rw [hplaced, step_of_item (s := presentItem item s) rfl rfl rfl rfl]
  exact runItem_of_instr (hcmd ▸ hread)

/-! ## The response word (R72, R161) -/

/-- Settles O58: the status of each of the three responses. -/
theorem responseStatusNumbers : Obligations.ResponseStatusNumbers :=
  ⟨rfl, fun _ => rfl, rfl, fun r => by cases r <;> simp [Response.status]⟩

end Sys2Proof.Machine

namespace Sys2Proof.Machine

/-! ## What a run puts on the bus -/

/-- What is played is part of the trace, or a transfer of it that failed. -/
theorem mem_of_mem_play {evs : List Event} {ans : List Answer} {out : Byte} {ev : Event}
    (h : ev ∈ (play evs ans out).events) : ev ∈ evs ∨ ∃ a b e, ev = .xfail a b e ∧ .xfer a b ∈ evs := by
  induction evs generalizing ans out with
  | nil => simp at h
  | cons head evs ih =>
    have hlater {ans : List Answer} {out : Byte} (h : ev = head ∨ ev ∈ (play evs ans out).events) :
        ev ∈ head :: evs ∨ ∃ a b e, ev = .xfail a b e ∧ .xfer a b ∈ head :: evs := by
      rcases h with rfl | h
      · exact .inl List.mem_cons_self
      · rcases ih h with h | ⟨a, b, e, he, h⟩
        · exact .inl (List.mem_cons_of_mem _ h)
        · exact .inr ⟨a, b, e, he, List.mem_cons_of_mem _ h⟩
    cases head with
    | xfer a b =>
      rcases ans with _ | ⟨_ | ⟨e, l⟩, rest⟩
      · simp at h
      · exact hlater (by simpa using h)
      · exact .inr ⟨a, b, e, by simpa using h, List.mem_cons_self⟩
    | xfail a b e => exact hlater (by simpa [play] using h)
    | wait n => exact hlater (by simpa using h)
    | rsp r => exact hlater (by simpa using h)

/-- The events a run adds are those it plays, and the response of its ending. -/
theorem runOps_trace (ops : List MicroOp) (s : State) :
    ∃ r : List Response, (runOps ops s).trace =
      s.trace ++ ((play (opEvents s.cfg s.bl ops) s.answers s.expOut).events ++ r.map .rsp) := by
  rw [runOps_eq]
  rcases (play (opEvents s.cfg s.bl ops) s.answers s.expOut).ending with _ | e | _
  · exact ⟨[.ok], by simp [State.settle, State.played]⟩
  · exact ⟨[.xferFail e], by simp [State.settle, State.played, takeXferFail, takeError]⟩
  · exact ⟨[], by simp [State.settle, State.played]⟩

/-- What the run of the request in progress puts on the bus is of its sequence. -/
theorem runBlock_trace (s : State) :
    ∃ evs, (runBlock s).trace = s.trace ++ evs ∧ ∀ ev ∈ evs, ev.OfSequence s := by
  obtain ⟨r, hr⟩ := runOps_trace s.remaining s
  have hops : ∀ ev ∈ opEvents s.cfg s.bl s.remaining, ev.OfSequence s := by
    intro ev hev
    obtain ⟨op, hop, rfl⟩ := List.mem_map.mp hev
    exact MicroOp.event_ofSequence (List.mem_of_mem_drop hop)
  refine ⟨_, hr, fun ev hev => ?_⟩
  rcases List.mem_append.mp hev with hev | hev
  · rcases mem_of_mem_play hev with hev | ⟨a, b, e, rfl, hxfer⟩
    · exact hops ev hev
    · exact hops (.xfer a b) hxfer
  · obtain ⟨r, -, rfl⟩ := List.mem_map.mp hev
    trivial

/-! ## The five patterns (R65) -/

/-- Every byte a request writes or tries to write is a byte of its sequence, merged with the backlight bit. -/
theorem exec_request_byte {s t : State} {r : Request} {evs : List Event} {a : BusAddr} {b : Byte}
    (hready : s.ready = true) (hx : exec r.toInstr s = .next t) (htrace : t.trace = s.trace ++ evs)
    (hb : .xfer a b ∈ evs ∨ ∃ e, .xfail a b e ∈ evs) :
    ∃ d, .transfer d ∈ opSequence s.cfg r.seqKind r.operand (r.mode s.cfg.pins) ∧ b = merge s.cfg.pins t.bl d := by
  rw [exec_request hready] at hx
  cases hx
  cases hg : s.grain with
  | micro =>
    rw [beginRequest_micro hg] at htrace
    obtain rfl : evs = [] := by simpa using htrace
    simp at hb
  | whole =>
    rw [beginRequest_whole hg] at htrace ⊢
    obtain ⟨evs', htrace', hseq⟩ := runBlock_trace (s.accept r)
    obtain rfl : evs = evs' := List.append_cancel_left (htrace.symm.trans htrace')
    obtain ⟨-, hbl, -⟩ := runOps_frame (s.accept r).remaining (s.accept r)
    rw [runRequest, runBlock, hbl]
    rcases hb with hb | ⟨e, hb⟩
    · exact (hseq _ hb).2
    · exact (hseq _ hb).2

/-- A nibble write with the default pin map: the nibble, the backlight bit, and `P_EN` with the mode bits below it. -/
theorem merge_write4_standard {c : Config} (hp : c.pins = PinMap.standard) {n : Nibble} {bl rs : Bool} {d : Byte}
    (h : .transfer d ∈ write4 c (place c.pins n ||| flagMask c.pins.pRs rs)) :
    merge c.pins bl d = n ++ BitVec.ofBool bl ++ (0b00#2 ++ BitVec.ofBool rs) ∨
    merge c.pins bl d = n ++ BitVec.ofBool bl ++ (0b10#2 ++ BitVec.ofBool rs) := by
  replace h := transfer_mem_write4 h
  rw [hp] at h ⊢
  clear hp
  rcases h with rfl | rfl | rfl
  · left; decide +revert
  · right; decide +revert
  · left; decide +revert

/-- Settles O24: the bytes of each kind of sequence, with the default pin map. -/
theorem emittedBytesHaveTheFivePatterns : Obligations.EmittedBytesHaveTheFivePatterns := by
  rintro s t r evs a b _ hready hp hx htrace rfl hb
  obtain ⟨d, hd, rfl⟩ := exec_request_byte hready hx htrace hb
  have hzero : merge s.cfg.pins t.bl 0 = 0b0000#4 ++ BitVec.ofBool t.bl ++ 0b000#3 := by
    rw [hp]; cases t.bl <;> rfl
  have hbyte {v mode : Byte} {rs : Bool} (hm : mode = flagMask s.cfg.pins.pRs rs)
      (hd : .transfer d ∈ sendByte s.cfg v mode) :
      ∃ n : Nibble, merge s.cfg.pins t.bl d = n ++ BitVec.ofBool t.bl ++ (0b00#2 ++ BitVec.ofBool rs) ∨
        merge s.cfg.pins t.bl d = n ++ BitVec.ofBool t.bl ++ (0b10#2 ++ BitVec.ofBool rs) := by
    subst hm
    exact (List.mem_append.mp hd).elim (fun h => ⟨_, merge_write4_standard hp h⟩)
      fun h => ⟨_, merge_write4_standard hp h⟩
  cases r with
  | xwr =>
    obtain rfl : d = 0 := by simpa [opSequence, Request.seqKind] using hd
    exact hzero
  | blw b =>
    obtain rfl : d = 0 := by simpa [opSequence, Request.seqKind] using hd
    exact hzero
  | nib n => exact ⟨_, merge_write4_standard (rs := false) hp hd⟩
  | cmd v => exact hbyte (rs := false) rfl hd
  | dat v => exact hbyte (rs := true) rfl hd

/-! ## The backlight bit (R69, R103) -/

/-- The bits of a mask outside the data lines and `P_EN` are in no byte of a sequence of R105, when the mode bits do not
have them. -/
theorem opSequence_and_mask {c : Config} {m mode d v : Byte} {k : SeqKind} (hplace : ∀ n, place c.pins n &&& m = 0)
    (hen : c.pins.pEn &&& m = 0) (hmode : mode &&& m = 0)
    (h : .transfer d ∈ opSequence c k v mode) : d &&& m = 0 := by
  have hwrite (n : Nibble) (h : .transfer d ∈ write4 c (place c.pins n ||| mode)) : d &&& m = 0 := by
    have hn : (place c.pins n ||| mode) &&& m = 0 := or_and_zero (hplace n) hmode
    rcases transfer_mem_write4 h with rfl | rfl | rfl
    · exact hn
    · exact or_and_zero hn hen
    · rw [BitVec.and_assoc, BitVec.and_comm (~~~_), ← BitVec.and_assoc, hn]
      exact BitVec.zero_and
  cases k with
  | zero =>
    obtain rfl : d = 0 := by simpa [opSequence] using h
    exact BitVec.zero_and
  | nibble => exact hwrite _ h
  | byte => exact (List.mem_append.mp h).elim (hwrite _) (hwrite _)

/-- The merge sets `P_BL` exactly when `BL` is 1, in a byte that does not have it (R69). -/
theorem merge_carries_bl {p : PinMap} (h : oneHot p.pBl = true) {d : Byte} (hd : d &&& p.pBl = 0) (bl : Bool) :
    merge p bl d &&& p.pBl ≠ 0 ↔ bl = true := by
  have hbit : p.pBl ≠ 0 := by rintro h0; rw [h0] at h; cases h
  cases bl with
  | false => simp [merge, blMask, hd]
  | true =>
    have habsorb : (d ||| p.pBl) &&& p.pBl = p.pBl := by
      rw [BitVec.and_comm, BitVec.and_or_distrib_left, BitVec.and_comm p.pBl d, hd, BitVec.and_self]
      exact BitVec.zero_or
    simpa [merge, blMask, habsorb] using hbit

/-- The latched mode bits do not have the backlight bit. -/
def State.ModeLeavesBl (s : State) : Prop := s.latchM &&& s.cfg.pins.pBl = 0

theorem mode_and_bl {p : PinMap} (h : p.wf = true) (r : Request) : r.mode p &&& p.pBl = 0 := by
  obtain ⟨-, -, -, hbl, -⟩ := (PinMap.wf_iff p).mp h
  cases r with
  | dat v => exact hbl
  | _ => exact BitVec.zero_and

theorem State.Inv.modeLeavesBl {s : State} (h : s.Inv) (hb : s.busy = true) : s.ModeLeavesBl := by
  obtain ⟨-, -, -, hbl, -⟩ := (PinMap.wf_iff _).mp (Config.pins_wf h.cfgWf)
  rcases h.mode hb with hm | ⟨hm, -⟩ <;> rw [State.ModeLeavesBl, hm]
  · exact BitVec.zero_and
  · exact hbl

theorem Event.OfSequence.carriesBl {s : State} (hw : s.cfg.pins.wf = true) (hm : s.ModeLeavesBl) {ev : Event}
    (hev : ev.OfSequence s) : ev.carriesBl s.cfg s.bl := by
  obtain ⟨⟨-, -, -, hone, -⟩, -, -, -, -, -, hen, -⟩ := (PinMap.wf_iff _).mp hw
  have hbyte (d : Byte) (hd : .transfer d ∈ s.ops) :
      merge s.cfg.pins s.bl d &&& s.cfg.pins.pBl ≠ 0 ↔ s.bl = true :=
    merge_carries_bl hone (opSequence_and_mask (place_and_bl hw) hen hm hd) s.bl
  cases ev with
  | xfer a b => obtain ⟨-, d, hd, rfl⟩ := hev; exact hbyte d hd
  | xfail a b e => obtain ⟨-, d, hd, rfl⟩ := hev; exact hbyte d hd
  | wait n => trivial
  | rsp r => trivial

/-- Since `s` the register holds `bl`, and every transfer carries it. -/
structure CarriesSince (s : State) (bl : Bool) (u : State) : Prop where
  cfg : u.cfg = s.cfg
  register : u.bl = bl
  trace : ∃ evs, u.trace = s.trace ++ evs ∧ ∀ ev ∈ evs, ev.carriesBl s.cfg bl

namespace CarriesSince

variable {s u t : State} {bl : Bool}

theorem refl (s : State) : CarriesSince s s.bl s := ⟨rfl, rfl, [], by simp, by simp⟩

theorem append (h : CarriesSince s bl u) (hcfg : t.cfg = u.cfg) (hbl : t.bl = u.bl)
    (ht : ∃ evs, t.trace = u.trace ++ evs ∧ ∀ ev ∈ evs, ev.carriesBl u.cfg u.bl) : CarriesSince s bl t := by
  obtain ⟨hcfg', hbl', before, hbefore, hcarry⟩ := h
  obtain ⟨evs, hevs, hcarry'⟩ := ht
  rw [hcfg', hbl'] at hcarry'
  exact ⟨hcfg.trans hcfg', hbl.trans hbl', before ++ evs, by rw [hevs, hbefore, List.append_assoc],
    fun ev hev => (List.mem_append.mp hev).elim (hcarry ev) (hcarry' ev)⟩

theorem runBlock (h : CarriesSince s bl u) (hw : u.cfg.pins.wf = true) (hm : u.ModeLeavesBl) :
    CarriesSince s bl (runBlock u) := by
  obtain ⟨hcfg, hbl, -⟩ := runOps_frame u.remaining u
  obtain ⟨evs, hevs, hseq⟩ := runBlock_trace u
  exact h.append hcfg hbl ⟨evs, hevs, fun ev hev => (hseq ev hev).carriesBl hw hm⟩

theorem microStep (h : CarriesSince s bl u) (hw : u.cfg.pins.wf = true) (hm : u.ModeLeavesBl) :
    CarriesSince s bl (microStep u) := by
  have hbl : (Machine.microStep u).bl = u.bl := by
    rcases microStep_played u with ⟨p, h⟩ | ⟨p, -, -, -, -, h⟩ | ⟨p, e, h⟩ | h <;> rw [h] <;> rfl
  obtain ⟨evs, hevs, hseq⟩ := microStep_trace u
  exact h.append (microStep_keeps_cfg_and_trace u).1 hbl ⟨evs, hevs, fun ev hev => (hseq ev hev).carriesBl hw hm⟩

theorem wait (h : CarriesSince s bl u) (n : Micros) : CarriesSince s bl (waitUs n u) :=
  h.append rfl rfl ⟨[.wait n], rfl, by simp [Event.carriesBl]⟩

/-- Only a BLW writes the register. -/
theorem accept (h : CarriesSince s bl u) {r : Request} (hr : ∀ b, r ≠ .blw b) : CarriesSince s bl (u.accept r) := by
  have hbl : r.backlight u.bl = u.bl := by
    cases r with
    | blw b => exact absurd rfl (hr b)
    | _ => rfl
  exact ⟨h.cfg, hbl.trans h.register, h.trace⟩

/-- A request whose acceptance has left the register as `bl` runs with `bl`. -/
theorem runRequest {r : Request} (h : CarriesSince s bl (u.accept r)) (hw : s.cfg.pins.wf = true) :
    CarriesSince s bl (runRequest r u) := by
  have hcfg : u.cfg = s.cfg := h.cfg
  exact h.runBlock (hcfg ▸ hw) (mode_and_bl (hcfg ▸ hw) r)

theorem perform (h : CarriesSince s bl u) (hw : s.cfg.pins.wf = true) {a : HostAction}
    (ha : ∀ b, a ≠ .request (.blw b)) : CarriesSince s bl (perform a u) := by
  cases a with
  | request r => exact (h.accept fun b hr => ha b (hr ▸ rfl)).runRequest hw
  | hwait n => exact h.wait n
  | _ => exact ⟨h.cfg, h.register, h.trace⟩

/-- A routine with no BLW to come leaves the register as it is. -/
theorem runRoutine (h : CarriesSince s bl u) (hw : s.cfg.pins.wf = true) {acts : List HostAction}
    (hacts : ∀ b, .request (.blw b) ∉ acts) : CarriesSince s bl (runRoutine acts u) := by
  have hkept : KeptBy (CarriesSince s bl) acts := {
    setHost := fun _ _ h => ⟨h.cfg, h.register, h.trace⟩
    accept := fun _ r hr h => h.accept fun b heq => hacts b (heq ▸ hr)
    perform := fun _ a ha h => h.perform hw fun b heq => hacts b (heq ▸ ha) }
  exact hkept.runRoutine h

theorem resume (h : CarriesSince s bl u) (hw : s.cfg.pins.wf = true) (hm : u.ModeLeavesBl)
    (hacts : ∀ rest b, u.host = .routine rest → .request (.blw b) ∉ rest) : CarriesSince s bl (resume u) := by
  have hrun := h.runBlock (h.cfg ▸ hw) hm
  simp only [Machine.resume]
  split
  next rest hbusy hhost =>
    have hrest : u.host = .routine rest :=
      (runBlock_host u).elim (fun hdirect => by rw [hhost] at hdirect; cases hdirect) (· ▸ hhost)
    exact hrun.runRoutine hw fun b => hacts rest b hrest
  next => exact hrun

end CarriesSince

/-- Every transfer since `s` carries the register as it is now. -/
def Carries (s t : State) : Prop := CarriesSince s t.bl t

theorem CarriesSince.carries {s t : State} {bl : Bool} (h : CarriesSince s bl t) : Carries s t := by
  obtain rfl := h.register
  exact h

theorem Carries.of_same_trace {s t : State} (hcfg : t.cfg = s.cfg) (htrace : t.trace = s.trace) : Carries s t :=
  ⟨hcfg, rfl, [], by simp [htrace], by simp⟩

theorem Carries.since {s u t : State} (h : Carries u t) (hcfg : u.cfg = s.cfg) (htrace : u.trace = s.trace) :
    Carries s t := by
  obtain ⟨hc, hr, ht⟩ := h
  rw [hcfg, htrace] at ht
  exact ⟨hc.trans hcfg, hr, ht⟩

theorem accept_carries (r : Request) (s : State) : Carries s (s.accept r) := .of_same_trace rfl rfl

theorem beginRequest_carries {s : State} (hw : s.cfg.pins.wf = true) (r : Request) : Carries s (beginRequest r s) := by
  cases hg : s.grain with
  | whole => rw [beginRequest_whole hg]; exact (CarriesSince.runRequest (accept_carries r s) hw).carries
  | micro => rw [beginRequest_micro hg]; exact accept_carries r s

theorem perform_carries {s : State} (hw : s.cfg.pins.wf = true) (a : HostAction) : Carries s (perform a s) := by
  cases a with
  | request r => exact (CarriesSince.runRequest (accept_carries r s) hw).carries
  | hwait n => exact ((CarriesSince.refl s).wait n).carries
  | _ => exact .of_same_trace rfl rfl

theorem startAction_carries {s : State} (hw : s.cfg.pins.wf = true) (a : HostAction) :
    Carries s (startAction a s) := by
  cases a with
  | request r => exact accept_carries r s
  | _ => exact perform_carries hw _

/-- The first action of a routine may write the register; the rest goes on with it. -/
theorem runRoutine_carries {s : State} (hw : s.cfg.pins.wf = true) {acts : List HostAction}
    (hacts : ∀ b, .request (.blw b) ∉ acts.tail) : Carries s (runRoutine acts s) := by
  cases acts with
  | nil => exact .of_same_trace rfl rfl
  | cons a rest =>
    have hfirst : Carries s (perform a (s.setHost (.routine rest))) :=
      (perform_carries (s := s.setHost (.routine rest)) hw a).since rfl rfl
    rcases runRoutine_cons_cases a rest s with hrun | ⟨-, -, hrun⟩ <;> rw [hrun]
    · exact hfirst
    · exact (CarriesSince.runRoutine hfirst hw hacts).carries

theorem goOnRoutine_carries {s : State} (hw : s.cfg.pins.wf = true) {acts : List HostAction}
    (hacts : ∀ b, .request (.blw b) ∉ acts.tail) : Carries s (goOnRoutine acts s) := by
  cases hg : s.grain with
  | whole => rw [goOnRoutine_whole hg]; exact runRoutine_carries hw hacts
  | micro =>
    cases acts with
    | nil => rw [goOnRoutine_micro_nil hg]; exact .of_same_trace rfl rfl
    | cons a rest =>
      rw [goOnRoutine_micro_cons hg]
      exact (startAction_carries (s := s.setHost (.routine rest)) hw a).since rfl rfl

theorem goOn_carries {s : State} (hs : s.Inv) (hb : s.busy = true) : Carries s (goOn s) := by
  have hw := Config.pins_wf hs.cfgWf
  have hm := hs.modeLeavesBl hb
  cases hg : s.grain with
  | whole =>
    rw [goOn_whole hg]
    exact ((CarriesSince.refl s).resume hw hm fun _ b => hs.routine_of_busy hb b).carries
  | micro => rw [goOn_micro hg]; exact ((CarriesSince.refl s).microStep hw hm).carries

theorem exec_carries {i : Instr} {s t : State} (hw : s.cfg.pins.wf = true) (hx : exec i s = .next t) :
    Carries s t := by
  cases hr : s.ready with
  | false =>
    rw [exec_of_not_ready hr] at hx
    cases hx
    exact .of_same_trace rfl rfl
  | true =>
    rcases exec_of_ready hr i with ⟨r, -, -, hx'⟩ | ⟨acts, -, he, hx'⟩ | ⟨-, -, e, hx'⟩ <;> rw [hx'] at hx <;> cases hx
    · exact beginRequest_carries hw r
    · cases hg : s.grain with
      | whole => rw [beginRoutine_whole hg]; exact runRoutine_carries hw (expansion_tail_without_blw he)
      | micro => rw [beginRoutine_micro hg]; exact .of_same_trace rfl rfl

theorem runItem_carries {item : HostItem} {s t : State} (hw : s.cfg.pins.wf = true) (h : runItem item s = .next t) :
    Carries s t := by
  unfold runItem at h
  split at h
  next => exact exec_carries hw h
  next => cases h; exact ⟨rfl, rfl, [.rsp .illegalReq], rfl, by simp [Event.carriesBl]⟩
  next n _ => cases h; exact ((CarriesSince.refl s).wait n).carries

/-! ### The step -/

/-- EVERYTHING a step CAN DO when the line is released: go on with the request in progress, go on with the routine,
nothing, or the front item. -/
theorem step_released_cases {s t : State} (hr : s.rst = .released) (h : step s = .next t) :
    (s.busy = true ∧ t = goOn s) ∨
    (s.busy = false ∧ ∃ acts, s.host = .routine acts ∧ t = goOnRoutine acts s) ∨
    (s.ready = true ∧ s.program = [] ∧ t = s) ∨
    (s.ready = true ∧ ∃ item rest, s.program = item :: rest ∧ runItem item (s.setProgram rest) = .next t) := by
  cases hb : s.busy with
  | true =>
    by_cases hin : s.phase.toNat < s.ops.length
    · rw [step_of_busy hr hb hin] at h
      cases h
      exact .inl ⟨rfl, rfl⟩
    · simp [step, proceed, hr, hb, hin] at h
  | false =>
    cases hh : s.host with
    | routine acts =>
      rw [step_of_routine hr hb hh] at h
      cases h
      exact .inr (.inl ⟨rfl, acts, rfl, rfl⟩)
    | direct =>
      have hready := s.ready_iff.mpr ⟨hb, hh⟩
      cases hp : s.program with
      | nil =>
        rw [step_of_nothing_presented hr hb hh hp] at h
        cases h
        exact .inr (.inr (.inl ⟨hready, rfl, rfl⟩))
      | cons item rest =>
        rw [step_of_item hr hb hh hp] at h
        exact .inr (.inr (.inr ⟨hready, item, rest, rfl, h⟩))

theorem step_carries {s t : State} (hs : s.Inv) (h : step s = .next t) : Carries s t := by
  have hw := Config.pins_wf hs.cfgWf
  cases hr : s.rst with
  | asserted d =>
    simp only [step, hr] at h
    cases h
    exact .of_same_trace rfl rfl
  | released =>
    rcases step_released_cases hr h with ⟨hb, rfl⟩ | ⟨hb, acts, hh, rfl⟩ | ⟨-, -, rfl⟩ | ⟨-, item, rest, -, hx⟩
    · exact goOn_carries hs hb
    · exact goOnRoutine_carries hw fun b => hs.routine_of_idle hb b hh
    · exact .of_same_trace rfl rfl
    · exact (runItem_carries (s := s.setProgram rest) hw hx).since rfl rfl

/-- Settles O52: `BL` is written, if at all, before the first transfer of a step. -/
theorem everyTransferCarriesTheBacklight : Obligations.EveryTransferCarriesTheBacklight :=
  fun _ _ hs h => (step_carries hs h).trace

end Sys2Proof.Machine

namespace Sys2Proof.Machine

/-! ## A request whose verdicts are known (R97, R102) -/

/-- A request whose transfers all complete. -/
theorem runRequest_completes {s : State} {r : Request} {n : Nat} {rest : List Answer} (hh : s.host = .direct)
    (hw : s.cfg.pins.wf = true) (hn : n = transfers (encEvents s.cfg s.bl r)) (h : answersOk n rest s) :
    Completed s (runRequest r s) (encEvents s.cfg s.bl r ++ [.rsp .ok]) rest ∧
      (runRequest r s).bl = encBl s.bl r ∧ SameShadow s (runRequest r s) := by
  have hplay := requestPlay_ok hn h
  rw [runRequest_completed hw (by rw [hplay]), hplay]
  exact ⟨⟨by simp [State.played], rfl, by simp [State.played, expOutOf], rfl, rfl, hh, rfl, rfl, rfl, rfl⟩,
    backlight_eq_encBl s.bl r, ⟨⟨rfl, rfl, rfl⟩, rfl⟩⟩

/-- A request whose `k`-th transfer fails. -/
theorem runRequest_fails {s : State} {r : Request} {k : Nat} {e : ErrVal} {latched : Bool} {rest : List Answer}
    (hw : s.cfg.pins.wf = true) (hk : k < transfers (encEvents s.cfg s.bl r)) (h : answersFail k e latched rest s) :
    Failed s (runRequest r s) (encEvents s.cfg s.bl r) k e latched rest ∧
      (runRequest r s).bl = encBl s.bl r ∧ InitCleared s (runRequest r s) := by
  obtain ⟨before, b, hfail, hplay⟩ := requestPlay_fail hk h
  rw [runRequest_failed hw (by rw [hplay]), hplay]
  exact ⟨⟨rfl, rfl, ⟨before, b, hfail, rfl⟩, rfl, rfl, rfl, rfl, rfl, rfl⟩, backlight_eq_encBl s.bl r,
    ⟨⟨rfl, rfl, rfl⟩, rfl⟩⟩

/-- A command byte expands to the CMD request that carries it (log 14). -/
theorem expansion_of_encodeCommand {s : State} {i : Instr} {b : Byte} (h : encodeCommand s.cfg.cmd i = some b) :
    i.isPseudo = false ∧ expansion s i = some [.request (.cmd b)] := by
  cases i <;> cases h <;> exact ⟨rfl, rfl⟩

/-- Settles O31: a command byte is run as its CMD request. -/
theorem commandBytesGoOutAsCmd : Obligations.CommandBytesGoOutAsCmd := by
  intro s i b rest hready hgrain hw hb
  obtain ⟨-, hh⟩ := s.ready_iff.mp hready
  obtain ⟨hi, he⟩ := expansion_of_encodeCommand hb
  have hx : exec i s = .next (runRequest (.cmd b) s) := by
    rw [exec_of_single_request hready hi he, beginRequest_whole hgrain]
  have hn : transfers (encEvents s.cfg s.bl (.cmd b)) = 6 := transfers_encEvents _ _ _
  exact ⟨fun h => ⟨_, hx, runRequest_completes hh hw hn.symm h⟩,
    fun k e l hk h => ⟨_, hx, runRequest_fails hw (hn ▸ hk) h⟩⟩

/-! ## What the host presents after a response (R73, R120; log 12) -/

/-- Among the events is the response of a failed transfer. -/
def HasFailure (evs : List Event) : Prop := ∃ e, .rsp (.xferFail e) ∈ evs

/-- From `s` to `t` no transfer has failed, and what the host presents is as before. -/
def RunsOn (s t : State) : Prop := ∃ evs, t.trace = s.trace ++ evs ∧ ¬ HasFailure evs ∧ t.program = s.program

/-- From `s` to `t` a transfer has failed, and the host has stopped. -/
def HasStopped (s t : State) : Prop :=
  ∃ evs, t.trace = s.trace ++ evs ∧ HasFailure evs ∧ t.program = [] ∧ t.host = .direct

/-- From `s` to `t` the host has stopped if a transfer has failed, and runs on otherwise. -/
def StopsAtFailure (s t : State) : Prop := RunsOn s t ∨ HasStopped s t

theorem RunsOn.of_same_trace {s t : State} (htrace : t.trace = s.trace) (hp : t.program = s.program) : RunsOn s t :=
  ⟨[], by simp [htrace], by simp [HasFailure], hp⟩

theorem RunsOn.of_event {s t : State} {ev : Event} (htrace : t.trace = s.trace ++ [ev])
    (hev : ∀ e, ev ≠ .rsp (.xferFail e)) (hp : t.program = s.program) : RunsOn s t :=
  ⟨[ev], htrace, by rintro ⟨e, he⟩; exact hev e (List.mem_singleton.mp he).symm, hp⟩

theorem hasFailure_append {xs ys : List Event} : HasFailure (xs ++ ys) ↔ HasFailure xs ∨ HasFailure ys := by
  simp [HasFailure, exists_or]

/-- What comes after a part without a failure decides. -/
theorem RunsOn.stopsAtFailure {s u t : State} (h : RunsOn s u) (ht : StopsAtFailure u t) : StopsAtFailure s t := by
  obtain ⟨before, hbefore, hnone, hp⟩ := h
  rcases ht with ⟨evs, hevs, hnone', hp'⟩ | ⟨evs, hevs, hfail, hp', hh⟩
  · exact .inl ⟨before ++ evs, by rw [hevs, hbefore, List.append_assoc],
      fun h => (hasFailure_append.mp h).elim hnone hnone', hp'.trans hp⟩
  · exact .inr ⟨before ++ evs, by rw [hevs, hbefore, List.append_assoc], hasFailure_append.mpr (.inr hfail), hp', hh⟩

/-- While the host is inside a routine, no transfer has failed. -/
theorem StopsAtFailure.runsOn {s t : State} {acts : List HostAction} (h : StopsAtFailure s t)
    (hh : t.host = .routine acts) : RunsOn s t := by
  rcases h with h | ⟨evs, -, -, -, hdirect⟩
  · exact h
  · rw [hh] at hdirect; cases hdirect

/-- The micro-operations of a sequence give no response. -/
theorem not_hasFailure_play_opEvents (c : Config) (bl : Bool) (ops : List MicroOp) (ans : List Answer) (out : Byte) :
    ¬ HasFailure (play (opEvents c bl ops) ans out).events := by
  rintro ⟨e, he⟩
  rcases mem_of_mem_play he with he | ⟨a, b, e', heq, -⟩
  · obtain ⟨op, -, heq⟩ := List.mem_map.mp he
    cases op <;> cases heq
  · cases heq

theorem takeXferFail_hasStopped {s t : State} {evs : List Event} (e : ErrVal) (htrace : t.trace = s.trace ++ evs) :
    HasStopped s (takeXferFail e t) :=
  ⟨evs ++ [.rsp (.xferFail e)], by simp [takeXferFail, takeError, htrace], ⟨e, by simp⟩, rfl, rfl⟩

theorem runOps_stopsAtFailure (ops : List MicroOp) (s : State) : StopsAtFailure s (runOps ops s) := by
  have hnone := not_hasFailure_play_opEvents s.cfg s.bl ops s.answers s.expOut
  rw [runOps_eq]
  generalize play (opEvents s.cfg s.bl ops) s.answers s.expOut = p at hnone
  rcases p.ending with _ | e | _
  · exact .inl ⟨p.events ++ [.rsp .ok], by simp [State.settle, State.played],
      fun h => (hasFailure_append.mp h).elim hnone (by simp [HasFailure]), rfl⟩
  · exact .inr (takeXferFail_hasStopped e rfl)
  · exact .inl ⟨p.events, rfl, hnone, rfl⟩

theorem runRequest_stopsAtFailure (r : Request) (s : State) : StopsAtFailure s (runRequest r s) :=
  (RunsOn.of_same_trace rfl rfl).stopsAtFailure (runOps_stopsAtFailure _ (s.accept r))

theorem microStep_stopsAtFailure (s : State) : StopsAtFailure s (microStep s) := by
  rcases microStep_cases s with ⟨-, hm⟩ | ⟨op, ops, -, ⟨t, hrun, hm⟩ | ⟨e, t, hrun, hm⟩ | ⟨-, hm⟩⟩ <;> rw [hm]
  · exact .inl (.of_same_trace rfl rfl)
  · have hdone : RunsOn s t := by
      refine .of_event (runOp_done_trace hrun) (fun e heq => by cases op <;> cases heq) ?_
      obtain ⟨p, rfl⟩ := runOp_done hrun
      rfl
    split
    · exact hdone.stopsAtFailure (.inl (.of_event (ev := .rsp .ok) rfl (fun _ heq => by cases heq) rfl))
    · exact .inl hdone
  · obtain ⟨d, -, htrace⟩ := runOp_failed_trace hrun
    exact .inr (takeXferFail_hasStopped e htrace)
  · exact .inl (.of_same_trace rfl rfl)

/-- An action that is no request gives no response. -/
theorem perform_runsOn {a : HostAction} (ha : ∀ r, a ≠ .request r) (s : State) : RunsOn s (perform a s) := by
  cases a with
  | request r => exact absurd rfl (ha r)
  | hwait n => exact .of_event (ev := .wait n) rfl (fun _ heq => by cases heq) rfl
  | _ => exact .of_same_trace rfl rfl

theorem perform_stopsAtFailure (a : HostAction) (s : State) : StopsAtFailure s (perform a s) := by
  by_cases ha : ∃ r, a = .request r
  · obtain ⟨r, rfl⟩ := ha
    exact runRequest_stopsAtFailure r s
  · exact .inl (perform_runsOn (not_exists.mp ha) s)

theorem startAction_runsOn (a : HostAction) (s : State) : RunsOn s (startAction a s) := by
  cases a with
  | request r => exact .of_same_trace rfl rfl
  | _ => exact perform_runsOn (by simp) s

theorem runRoutine_stopsAtFailure (acts : List HostAction) (s : State) : StopsAtFailure s (runRoutine acts s) := by
  induction acts generalizing s with
  | nil => exact .inl (.of_same_trace rfl rfl)
  | cons a rest ih =>
    have hfirst : StopsAtFailure s (perform a (s.setHost (.routine rest))) :=
      (RunsOn.of_same_trace rfl rfl).stopsAtFailure (perform_stopsAtFailure a _)
    rcases runRoutine_cons_cases a rest s with hrun | ⟨-, hhost, hrun⟩ <;> rw [hrun]
    · exact hfirst
    · exact (hfirst.runsOn hhost).stopsAtFailure (ih _)

theorem resume_stopsAtFailure (s : State) : StopsAtFailure s (resume s) := by
  have hrun : StopsAtFailure s (runBlock s) := runOps_stopsAtFailure _ s
  simp only [resume]
  split
  next rest _ hhost => exact (hrun.runsOn hhost).stopsAtFailure (runRoutine_stopsAtFailure rest _)
  next => exact hrun

theorem goOn_stopsAtFailure (s : State) : StopsAtFailure s (goOn s) := by
  cases hg : s.grain with
  | whole => rw [goOn_whole hg]; exact resume_stopsAtFailure s
  | micro => rw [goOn_micro hg]; exact microStep_stopsAtFailure s

theorem goOnRoutine_stopsAtFailure (acts : List HostAction) (s : State) : StopsAtFailure s (goOnRoutine acts s) := by
  cases hg : s.grain with
  | whole => rw [goOnRoutine_whole hg]; exact runRoutine_stopsAtFailure acts s
  | micro =>
    cases acts with
    | nil => rw [goOnRoutine_micro_nil hg]; exact .inl (.of_same_trace rfl rfl)
    | cons a rest =>
      rw [goOnRoutine_micro_cons hg]
      exact (RunsOn.of_same_trace rfl rfl).stopsAtFailure (.inl (startAction_runsOn a _))

theorem beginRequest_stopsAtFailure (r : Request) (s : State) : StopsAtFailure s (beginRequest r s) := by
  cases hg : s.grain with
  | whole => rw [beginRequest_whole hg]; exact runRequest_stopsAtFailure r s
  | micro => rw [beginRequest_micro hg]; exact .inl (.of_same_trace rfl rfl)

theorem beginRoutine_stopsAtFailure (acts : List HostAction) (s : State) : StopsAtFailure s (beginRoutine acts s) := by
  cases hg : s.grain with
  | whole => rw [beginRoutine_whole hg]; exact runRoutine_stopsAtFailure acts s
  | micro => rw [beginRoutine_micro hg]; exact .inl (.of_same_trace rfl rfl)

theorem exec_stopsAtFailure {i : Instr} {s t : State} (hready : s.ready = true) (hx : exec i s = .next t) :
    StopsAtFailure s t := by
  rcases exec_of_ready hready i with ⟨r, -, -, hx'⟩ | ⟨acts, -, -, hx'⟩ | ⟨-, -, e, hx'⟩ <;> rw [hx'] at hx <;> cases hx
  · exact beginRequest_stopsAtFailure r s
  · exact beginRoutine_stopsAtFailure acts s

/-- A step of what is in progress: the busy block's request, or the host's routine. -/
theorem step_stopsAtFailure {s t : State} (hr : s.rst = .released) (hready : s.ready = false)
    (h : step s = .next t) : StopsAtFailure s t := by
  rcases step_released_cases hr h with ⟨-, rfl⟩ | ⟨-, acts, -, rfl⟩ | ⟨hready', -⟩ | ⟨hready', -⟩
  · exact goOn_stopsAtFailure s
  · exact goOnRoutine_stopsAtFailure acts s
  · simp [hready] at hready'
  · simp [hready] at hready'

/-- The new events tell which of the two it is. -/
theorem StopsAtFailure.of_trace {s t : State} {evs : List Event} (h : StopsAtFailure s t)
    (htrace : t.trace = s.trace ++ evs) :
    (HasFailure evs → t.program = [] ∧ t.host = .direct) ∧
    ((∀ e, .rsp (.xferFail e) ∉ evs) → t.program = s.program) := by
  rcases h with ⟨evs', htrace', hnone, hp⟩ | ⟨evs', htrace', hfail, hstopped⟩ <;>
    obtain rfl : evs = evs' := List.append_cancel_left (htrace.symm.trans htrace')
  · exact ⟨fun hfail => absurd hfail hnone, fun _ => hp⟩
  · exact ⟨fun _ => hstopped, fun hnone => absurd hfail (not_exists.mpr hnone)⟩

/-- Settles O44: an instruction and a step of what is in progress each stop the host where a transfer fails, and an
illegal word is rejected. -/
theorem failureStopsTheHostProgram : Obligations.FailureStopsTheHostProgram := by
  refine ⟨fun s t i evs hready _ hx htrace => (exec_stopsAtFailure hready hx).of_trace htrace,
    fun s t evs _ hr hready hstep htrace => (step_stopsAtFailure hr hready hstep).of_trace htrace,
    fun s w rest e hready hr hp hw => ?_⟩
  obtain ⟨hb, hh⟩ := s.ready_iff.mp hready
  exact ⟨_, step_of_illegal_word hr hb hh hp hw, rfl, rfl, rfl⟩

end Sys2Proof.Machine

namespace Sys2Proof.Machine

/-! ## A request whose pin map is well formed, or that writes no nibble (R94 to R98, R102) -/

/-- The one transfer of XWR and BLW is the encoder's under every pin map (R94, R95, R105). -/
theorem opEvents_opSequence_zero {r : Request} (hr : r.seqKind = .zero) (c : Config) (bl : Bool) :
    opEvents c (r.backlight bl) (opSequence c r.seqKind r.operand (r.mode c.pins)) = encEvents c bl r := by
  cases r with
  | cmd v => cases hr
  | dat v => cases hr
  | nib n => cases hr
  | blw b => simp [opSequence, Request.seqKind, opEvents, MicroOp.event, merge, encEvents, Request.backlight]
  | xwr => simp [opSequence, Request.seqKind, opEvents, MicroOp.event, merge, encEvents, Request.backlight]

/-- The play of the micro-operations of a request accepted in `s`, under whatever pin map (R105). -/
def State.opsPlay (s : State) (r : Request) : Played :=
  play (opEvents s.cfg (r.backlight s.bl) (opSequence s.cfg r.seqKind r.operand (r.mode s.cfg.pins))) s.answers s.expOut

theorem runRequest_opsPlay (r : Request) (s : State) :
    runRequest r s =
      ((s.accept r).played (s.opsPlay r) (BitVec.ofNat 4 (s.opsPlay r).events.length)).settle (s.opsPlay r).ending := by
  have hrem : (s.accept r).remaining = opSequence s.cfg r.seqKind r.operand (r.mode s.cfg.pins) := rfl
  simp only [runRequest, runBlock, hrem, runOps_eq, State.accept_cfg, State.accept_bl, State.accept_answers,
    State.accept_expOut, State.accept_phase, State.opsPlay, zero_add]

/-- What is played is R101's encoder: where the pin map is well formed, and for XWR and BLW under every one. -/
theorem opsPlay_eq_requestPlay {s : State} {r : Request} (h : s.cfg.pins.wf = true ∨ r.seqKind = .zero) :
    s.opsPlay r = s.requestPlay r := by
  rw [State.opsPlay, State.requestPlay]
  rcases h with hw | hr
  · rw [opEvents_opSequence hw]
  · rw [opEvents_opSequence_zero hr]

/-- What a request of `n` transfers comes to at the whole grain when all of them complete, and when the `k`-th fails. XWR
and BLW need no well-formed pin map. -/
theorem exec_request_by_verdicts {s : State} {r : Request} {evs : List Event} {n : Nat} (rest : List Answer)
    (hready : s.ready = true) (hgrain : s.grain = .whole) (h : s.cfg.pins.wf = true ∨ r.seqKind = .zero)
    (hevs : encEvents s.cfg s.bl r = evs) (hn : transfers evs = n) :
    (answersOk n rest s → ∃ t, exec r.toInstr s = .next t ∧ Completed s t (evs ++ [.rsp .ok]) rest ∧
      t.bl = encBl s.bl r ∧ SameShadow s t) ∧
    (∀ k e l, k < n → answersFail k e l rest s → ∃ t, exec r.toInstr s = .next t ∧ Failed s t evs k e l rest ∧
      t.bl = encBl s.bl r ∧ InitCleared s t) := by
  subst hevs hn
  obtain ⟨-, hhost⟩ := s.ready_iff.mp hready
  have hx : exec r.toInstr s = .next (runRequest r s) := by rw [exec_request hready, beginRequest_whole hgrain]
  have hbl := backlight_eq_encBl s.bl r
  rw [hx, runRequest_opsPlay, opsPlay_eq_requestPlay h]
  refine ⟨fun hok => ⟨_, rfl, ?_⟩, fun k e l hk hfail => ⟨_, rfl, ?_⟩⟩
  · rw [requestPlay_ok rfl hok]
    exact ⟨⟨by simp [State.settle, State.played], rfl, by simp [State.settle, State.played, expOutOf], rfl, rfl, hhost,
      rfl, rfl, rfl, rfl⟩, hbl, ⟨⟨rfl, rfl, rfl⟩, rfl⟩⟩
  · obtain ⟨before, b, hlast, hplay⟩ := requestPlay_fail hk hfail
    rw [hplay]
    exact ⟨⟨rfl, rfl, ⟨before, b, hlast, rfl⟩, rfl, rfl, rfl, rfl, rfl, rfl⟩, hbl, ⟨⟨rfl, rfl, rfl⟩, rfl⟩⟩

/-! ## The five requests (R94 to R98) -/

/-- Settles O16: XWR is a request of one transfer. -/
theorem xwrWritesTheBacklightByte : Obligations.XwrWritesTheBacklightByte := by
  refine ⟨rfl, fun a ha => by simpa [decodeWord] using ha, fun s rest hready hgrain => ?_⟩
  obtain ⟨hok, hfail⟩ := exec_request_by_verdicts (r := .xwr) rest hready hgrain (.inr rfl) rfl rfl
  exact ⟨hok, fun e l => hfail 0 e l Nat.one_pos⟩

/-- Settles O17: BLW is a request of one transfer, and acceptance writes `BL`. -/
theorem blwSetsTheBacklight : Obligations.BlwSetsTheBacklight := by
  refine ⟨by decide, fun a ha => by simpa [decodeWord] using ha, fun s b rest hready hgrain => ?_⟩
  obtain ⟨hok, hfail⟩ := exec_request_by_verdicts (r := .blw b) rest hready hgrain (.inr rfl) rfl rfl
  exact ⟨hok, fun e l => hfail 0 e l Nat.one_pos⟩

/-- Settles O18: NIB is a request of three transfers, those of one nibble write. -/
theorem nibWritesOneNibble : Obligations.NibWritesOneNibble := by
  refine ⟨by decide, fun a ha => by simpa [decodeWord] using ha, ?_⟩
  rintro s n rest d m evs hready hgrain hw rfl rfl hevs
  exact exec_request_by_verdicts (r := .nib n) rest hready hgrain (.inl hw) hevs.symm (by rw [hevs]; rfl)

/-- Settles O19: CMD is a request of six transfers, those of two nibble writes. -/
theorem cmdSendsACommandByte : Obligations.CmdSendsACommandByte := by
  refine ⟨fun v => rfl, ?_⟩
  rintro s v rest hi lo m evs hready hgrain hw rfl rfl rfl hevs
  exact exec_request_by_verdicts (r := .cmd v) rest hready hgrain (.inl hw) hevs.symm (by rw [hevs]; rfl)

/-- Settles O20: DAT is a request of six transfers, those of two nibble writes with `P_RS`. -/
theorem datSendsADataByte : Obligations.DatSendsADataByte := by
  refine ⟨fun v => rfl, ?_⟩
  rintro s v rest hi lo m evs hready hgrain hw rfl rfl rfl hevs
  exact exec_request_by_verdicts (r := .dat v) rest hready hgrain (.inl hw) hevs.symm (by rw [hevs]; rfl)

/-! ## The counts of R100 -/

theorem waits_nibEvents (c : Config) (m d : Byte) : waits (nibEvents c m d) = 2 := rfl

theorem waitTime_nibEvents (c : Config) (m d : Byte) :
    waitTime (nibEvents c m d) = c.delays.tEnHold + c.delays.tSettle := by
  simp [waitTime, nibEvents]

theorem waits_encEvents (c : Config) (bl : Bool) (r : Request) :
    waits (encEvents c bl r) = match r with | .xwr | .blw _ => 0 | .nib _ => 2 | .cmd _ | .dat _ => 4 := by
  cases r with
  | cmd v => simp [encEvents, waits_nibEvents]
  | dat v => simp [encEvents, waits_nibEvents]
  | nib n => exact waits_nibEvents c _ _
  | blw b => rfl
  | xwr => rfl

theorem waitTime_encEvents {c : Config} (h : c.delays = Delays.standard) (bl : Bool) (r : Request) :
    waitTime (encEvents c bl r) = match r with | .xwr | .blw _ => 0 | .nib _ => 51 | .cmd _ | .dat _ => 102 := by
  cases r with
  | cmd v => simp [encEvents, waitTime_nibEvents, h, Delays.standard]
  | dat v => simp [encEvents, waitTime_nibEvents, h, Delays.standard]
  | nib n => simp [encEvents, waitTime_nibEvents, h, Delays.standard]
  | blw b => rfl
  | xwr => rfl

/-- Settles O21: the events of a request that completes are the encoder's, and these are counted. -/
theorem requestCounts : Obligations.RequestCounts := by
  intro s r rest hready hgrain hw n w us hcounts hok
  have htransfers := transfers_encEvents s.cfg s.bl r
  have hwaits := waits_encEvents s.cfg s.bl r
  have htime (h : s.cfg.delays = Delays.standard) := waitTime_encEvents h s.bl r
  obtain ⟨hn, hwaits, htime⟩ : transfers (encEvents s.cfg s.bl r) = n ∧ waits (encEvents s.cfg s.bl r) = w ∧
      (s.cfg.delays = Delays.standard → waitTime (encEvents s.cfg s.bl r) = us) := by
    cases r <;> cases hcounts <;> exact ⟨htransfers, hwaits, htime⟩
  obtain ⟨t, hx, hdone, -⟩ := (exec_request_by_verdicts rest hready hgrain (.inl hw) rfl hn).1 hok
  exact ⟨t, _, hx, by rw [hdone.trace, List.append_assoc], hdone.answers, hn, hwaits, htime⟩

/-! ## The block as a pure encoder (R101, R102) -/

theorem length_requestPlay_lt (s : State) (r : Request) : (s.requestPlay r).events.length < 2 ^ 4 := by
  have hplay : (s.requestPlay r).events.length ≤ _ := play_length_le _ s.answers s.expOut
  have henc := length_encEvents_le s.cfg s.bl r
  omega

/-- Settles O22: a request plays the encoder to the master, and each of the three endings settles it. -/
theorem requestIsThePureEncoder : Obligations.RequestIsThePureEncoder := by
  rintro s r _ hready hgrain hw rfl
  have hx : exec r.toInstr s = .next (runRequest r s) := by rw [exec_request hready, beginRequest_whole hgrain]
  have hbl := backlight_eq_encBl s.bl r
  rw [← State.requestPlay]
  refine ⟨_, hx, ?_⟩
  cases hend : (s.requestPlay r).ending with
  | completed =>
    rw [runRequest_completed hw hend]
    exact ⟨hbl, rfl, rfl, ⟨rfl, rfl, rfl⟩, rfl, rfl, rfl, rfl, rfl⟩
  | failed e =>
    rw [runRequest_failed hw hend]
    exact ⟨hbl, rfl, rfl, ⟨rfl, rfl, rfl⟩, rfl, rfl, rfl, rfl⟩
  | waiting =>
    rw [runRequest_waiting hw hend]
    refine ⟨hbl, rfl, rfl, ⟨rfl, rfl, rfl⟩, rfl, rfl, Nat.mod_eq_of_lt (length_requestPlay_lt s r), rfl, rfl,
      ?_, ?_, ?_⟩
    · rintro v rfl
      exact ⟨rfl, rfl⟩
    · rintro v rfl
      exact ⟨rfl, rfl⟩
    · rintro n rfl
      exact ⟨loNibble_operand_nib n, rfl⟩

/-! ## The events of a request do not depend on the expander (R101) -/

/-- What the expander holds decides only what it holds afterwards. -/
theorem play_of_other_out (evs : List Event) (ans : List Answer) (out out' : Byte) :
    ∃ o, play evs ans out' = { play evs ans out with out := o } := by
  induction evs generalizing out out' ans with
  | nil => exact ⟨out', by simp⟩
  | cons ev evs ih =>
    cases ev with
    | xfer a b =>
      rcases ans with _ | ⟨_ | ⟨e, l⟩, rest⟩
      · exact ⟨out', by simp⟩
      · exact ⟨(play evs rest b).out, by simp⟩
      · exact ⟨if l then b else out', by simp⟩
    | xfail a b e =>
      obtain ⟨o, ho⟩ := ih ans out out'
      exact ⟨o, by simp [play, ho]⟩
    | wait n =>
      obtain ⟨o, ho⟩ := ih ans out out'
      exact ⟨o, by simp [ho]⟩
    | rsp r =>
      obtain ⟨o, ho⟩ := ih ans out out'
      exact ⟨o, by simp [ho]⟩

/-- Settles O23: what a request plays is a function of the parameters, `BL`, the answers and what the expander holds, and
the last of these decides no event. -/
theorem requestEventsDependOnBacklightAlone : Obligations.RequestEventsDependOnBacklightAlone := by
  intro s₁ s₂ t₁ t₂ r hready₁ hready₂ hcfg hbl hans hgrain hx₁ hx₂
  rw [exec_request hready₁] at hx₁
  rw [exec_request hready₂] at hx₂
  cases hx₁
  cases hx₂
  have hbl' : r.backlight s₁.bl = r.backlight s₂.bl := by rw [hbl]
  cases hg : s₁.grain with
  | micro =>
    rw [beginRequest_micro hg, beginRequest_micro (hgrain ▸ hg)]
    exact ⟨[], by simp, by simp, hbl', hans, rfl, rfl⟩
  | whole =>
    rw [beginRequest_whole hg, beginRequest_whole (hgrain ▸ hg), runRequest_opsPlay, runRequest_opsPlay]
    obtain ⟨out, hplay⟩ : ∃ out, s₂.opsPlay r = { s₁.opsPlay r with out := out } := by
      rw [State.opsPlay, State.opsPlay, ← hcfg, ← hbl, ← hans]
      exact play_of_other_out _ _ _ _
    rw [hplay]
    rcases s₁.opsPlay r with ⟨evs, ans, _, _ | e | _⟩
    · exact ⟨evs ++ [.rsp .ok], by simp [State.settle, State.played], by simp [State.settle, State.played], hbl',
        rfl, rfl, rfl⟩
    · exact ⟨evs ++ [.rsp (.xferFail e)], by simp [State.settle, State.played, takeXferFail, takeError],
        by simp [State.settle, State.played, takeXferFail, takeError], hbl', rfl, rfl, rfl⟩
    · exact ⟨evs, rfl, rfl, hbl', rfl, rfl, rfl⟩

/-! ## The run of a request is its own step iterated (R105; log 1) -/

/-- Settles O26: a micro-operation that completes before the last leaves less to do, and every other one ends the run. -/
theorem runIsTheMicroStepIterated : Obligations.RunIsTheMicroStepIterated := by
  intro s hb hin
  obtain ⟨op, ops, hrem⟩ := List.exists_cons_of_ne_nil (s.remaining_ne_nil_iff.mpr hin)
  rw [runBlock, hrem]
  cases hrun : runOp op s with
  | done t =>
    obtain ⟨p, rfl⟩ := runOp_done hrun
    by_cases hops : ops = []
    · have hm : microStep s = (s.played p (s.phase + 1)).respond .ok := by simp [microStep, hrem, hrun, hops]
      rw [if_neg (by simp [hm]), hm, runOps, hrun, hops]
      rfl
    · have hm : microStep s = s.played p (s.phase + 1) := by simp [microStep, hrem, hrun, hops]
      have hrest := State.remaining_played_succ hrem p
      have hmoved : s.played p (s.phase + 1) ≠ s := fun h => by rw [h, hrem] at hrest; simp at hrest
      rw [hm, if_pos ⟨hb, hmoved⟩, runBlock, hrest, runOps, hrun]
  | failed e t =>
    have hm : microStep s = takeXferFail e t := by simp [microStep, hrem, hrun]
    rw [if_neg (by simp [hm, takeXferFail, takeError]), hm, runOps, hrun]
  | waiting =>
    have hm : microStep s = s := by simp [microStep, hrem, hrun]
    rw [if_neg (by simp [hm]), hm, runOps, hrun]

/-! ## The idle block, and a failed transfer (R99, R102, R166) -/

/-- Settles O9: `step` comes to the empty program, and answers the state itself. -/
theorem idleBlockDoesNothing : Obligations.IdleBlockDoesNothing :=
  fun _ hb hh hr hp => step_of_nothing_presented hr hb hh hp

theorem runBlock_of_fail {s : State} {d : Byte} {ops : List MicroOp} {e : ErrVal} {l : Bool} {as : List Answer}
    (hrem : s.remaining = .transfer d :: ops) (h : s.answers = .fail e l :: as) : runBlock s = microStep s := by
  simp only [runBlock, microStep, hrem, runOps, runOp, expanderWrite, i2cWrite, h]

/-- Settles O14: neither grain gets past a transfer that fails, and the response is the block's own step. -/
theorem transferFailureIsTaken : Obligations.TransferFailureIsTaken := by
  rintro s d _ rest e latched as hrst hb hrem hfail rfl
  have hm := microStep_of_fail hrem hfail
  have hgo : goOn s = microStep s := by
    cases hg : s.grain with
    | micro => exact goOn_micro hg
    | whole =>
      have hrun := runBlock_of_fail hrem hfail
      rw [goOn_whole hg, resume_of_direct (by rw [hrun, hm]; rfl), hrun]
  have hstep := step_of_busy hrst hb (s.remaining_ne_nil_iff.mp (by simp [hrem]))
  rw [hgo, hm] at hstep
  exact ⟨_, hstep, by simp [takeXferFail, takeError], rfl, rfl, rfl, rfl, rfl, rfl, rfl, ⟨⟨rfl, rfl, rfl⟩, rfl⟩, rfl⟩

end Sys2Proof.Machine

namespace Sys2Proof.Machine

/-! ## What a routine does to the registers (R21, R26 to R30, R120) -/

/-- The registers an instruction can write. -/
structure Registers where
  bl : Bool
  dc : DisplayControl
  em : EntryMode
  fs : FunctionSet
  init : Bool

def State.registers (s : State) : Registers := ⟨s.bl, s.dc, s.em, s.fs, s.init⟩

/-- What an action of the host writes. -/
def HostAction.write : HostAction → Registers → Registers
  | .request r, g => { g with bl := encBl g.bl r }
  | .hwait _, g => g
  | .setFs v, g => { g with fs := v }
  | .setDc v, g => { g with dc := v }
  | .setEm v, g => { g with em := v }
  | .markInit, g => { g with init := true }

/-- What actions write, one after another. -/
def written (acts : List HostAction) (g : Registers) : Registers := acts.foldl (fun g a => a.write g) g

/-- How many transfers a request makes (R100). -/
def Request.transferCount : Request → Nat
  | .xwr | .blw _ => 1
  | .nib _ => 3
  | .cmd _ | .dat _ => 6

/-- The actions the host has begun when transfer `k` (from 0) of the routine fails. -/
def begun : List HostAction → Nat → List HostAction
  | [], _ => []
  | .request r :: rest, k =>
    if k < r.transferCount then [.request r] else .request r :: begun rest (k - r.transferCount)
  | a :: rest, k => a :: begun rest k

theorem begun_request_of_lt {r : Request} {k : Nat} (hk : k < r.transferCount) (rest : List HostAction) :
    begun (.request r :: rest) k = [.request r] := if_pos hk

theorem begun_request_add (r : Request) (rest : List HostAction) (k : Nat) :
    begun (.request r :: rest) (r.transferCount + k) = .request r :: begun rest k := by
  simp [begun]

theorem begun_of_not_request {a : HostAction} (ha : ∀ r, a ≠ .request r) (rest : List HostAction) (k : Nat) :
    begun (a :: rest) k = a :: begun rest k := by
  cases a with
  | request r => exact absurd rfl (ha r)
  | _ => rfl

theorem begun_prefix (acts : List HostAction) (k : Nat) : begun acts k <+: acts := by
  induction acts generalizing k with
  | nil => exact List.prefix_rfl
  | cons a rest ih =>
    cases a with
    | request r =>
      rcases Nat.lt_or_ge k r.transferCount with hk | hk
      · rw [begun_request_of_lt hk]
        exact ⟨rest, rfl⟩
      · obtain ⟨j, rfl⟩ := Nat.exists_eq_add_of_le hk
        rw [begun_request_add]
        exact List.cons_prefix_cons.mpr ⟨rfl, ih j⟩
    | _ => exact List.cons_prefix_cons.mpr ⟨rfl, ih k⟩

/-- Actions that each write nothing write nothing together. -/
theorem written_eq_self {acts : List HostAction} {g : Registers} (h : ∀ a ∈ acts, a.write g = g) :
    written acts g = g := by
  induction acts with
  | nil => rfl
  | cons a rest ih =>
    obtain ⟨ha, hrest⟩ := List.forall_mem_cons.mp h
    calc written (a :: rest) g = written rest (a.write g) := rfl
      _ = g := by rw [ha, ih hrest]

theorem State.registers_eq_iff_sameShadow {s t : State} :
    t.registers = s.registers ↔ t.bl = s.bl ∧ SameShadow s t := by
  refine ⟨fun h => ?_, fun ⟨hbl, ⟨hdc, hem, hfs⟩, hinit⟩ => by simp only [registers, hbl, hdc, hem, hfs, hinit]⟩
  injection h with hbl hdc hem hfs hinit
  exact ⟨hbl, ⟨hdc, hem, hfs⟩, hinit⟩

theorem State.registers_eq_iff_initCleared {s t : State} :
    t.registers = { s.registers with init := false } ↔ t.bl = s.bl ∧ InitCleared s t := by
  refine ⟨fun h => ?_, fun ⟨hbl, ⟨hdc, hem, hfs⟩, hinit⟩ => by simp only [registers, hbl, hdc, hem, hfs, hinit]⟩
  injection h with hbl hdc hem hfs hinit
  exact ⟨hbl, ⟨hdc, hem, hfs⟩, hinit⟩

/-! ## The events of a routine (R74) -/

/-- What an event of a routine in which nothing fails can be. -/
def Event.ofRoutine (c : Config) : Event → Prop
  | .xfer a _ => a = c.i2cAddr
  | .wait _ => True
  | .rsp r => r = .ok
  | .xfail _ _ _ => False

theorem encEvents_ofRoutine {c : Config} {bl : Bool} {r : Request} : ∀ ev ∈ encEvents c bl r, ev.ofRoutine c := by
  cases r <;> simp [encEvents, nibEvents, Event.ofRoutine]

theorem routineEvents_ofRoutine {c : Config} {bl : Bool} {acts : List HostAction} :
    ∀ ev ∈ routineEvents c bl acts, ev.ofRoutine c := by
  induction acts generalizing bl with
  | nil => simp [routineEvents]
  | cons a rest ih =>
    cases a with
    | request r =>
      exact List.forall_mem_append.mpr ⟨encEvents_ofRoutine, List.forall_mem_cons.mpr ⟨rfl, ih⟩⟩
    | hwait n => exact List.forall_mem_cons.mpr ⟨trivial, ih⟩
    | _ => exact ih

theorem noFail_routineEvents (c : Config) (bl : Bool) (acts : List HostAction) : noFail (routineEvents c bl acts) :=
  fun _ _ _ hev => routineEvents_ofRoutine _ hev

theorem transfers_encEvents_eq (c : Config) (bl : Bool) (r : Request) :
    transfers (encEvents c bl r) = r.transferCount := by
  rw [transfers_encEvents]
  cases r <;> rfl

theorem transfers_routineEvents_request (c : Config) (bl : Bool) (r : Request) (rest : List HostAction) :
    transfers (routineEvents c bl (.request r :: rest)) =
      r.transferCount + transfers (routineEvents c (encBl bl r) rest) := by
  simp [routineEvents, transfers_encEvents_eq]

theorem transfers_routineEvents_of_not_request {a : HostAction} (ha : ∀ r, a ≠ .request r) (c : Config) (bl : Bool)
    (rest : List HostAction) :
    transfers (routineEvents c bl (a :: rest)) = transfers (routineEvents c bl rest) := by
  cases a with
  | request r => exact absurd rfl (ha r)
  | hwait n => simp [routineEvents]
  | _ => rfl

/-- Data requests put their bytes on the bus one after another (R53). -/
theorem routineEvents_dat (c : Config) (bl : Bool) (bytes : List Byte) :
    routineEvents c bl (bytes.map fun b => .request (.dat b)) =
      bytes.flatMap fun b => encEvents c bl (.dat b) ++ [.rsp .ok] := by
  induction bytes with
  | nil => rfl
  | cons b rest ih => simp [routineEvents, encBl, ih]

theorem transfers_flatMap_dat (c : Config) (bl : Bool) (bytes : List Byte) :
    transfers (bytes.flatMap fun b => encEvents c bl (.dat b) ++ [.rsp .ok]) = 6 * bytes.length := by
  induction bytes with
  | nil => rfl
  | cons b rest ih => simp [transfers_encEvents, ih]; omega

/-! ## A routine whose verdicts are known (R102, R120) -/

/-- A request of a routine whose transfers complete: the routine goes on with the rest of it. -/
theorem runRoutine_request_answered {s : State} {r : Request} {rest : List Answer} (acts : List HostAction)
    (hw : s.cfg.pins.wf = true) (hok : answersOk r.transferCount rest s) :
    ∃ u : State, runRoutine (.request r :: acts) s = runRoutine acts u ∧ u.busy = false ∧ u.phase = 0 ∧
      u.cfg = s.cfg ∧ u.bl = encBl s.bl r ∧ u.answers = rest ∧
      u.registers = HostAction.write (.request r) s.registers := by
  have hplay := requestPlay_ok (transfers_encEvents_eq s.cfg s.bl r).symm hok
  refine ⟨_, runRoutine_request_completed hw acts (by rw [hplay]), rfl, rfl, rfl, backlight_eq_encBl s.bl r,
    by rw [hplay]; rfl, ?_⟩
  simp [State.registers, State.played, HostAction.write, backlight_eq_encBl]

/-- An action of a routine that is no request is carried out, and the routine goes on. -/
theorem runRoutine_of_not_request {s : State} {a : HostAction} (acts : List HostAction) (ha : ∀ r, a ≠ .request r)
    (hb : s.busy = false) :
    ∃ u : State, runRoutine (a :: acts) s = runRoutine acts u ∧ u.busy = false ∧ u.phase = s.phase ∧ u.cfg = s.cfg ∧
      u.bl = s.bl ∧ u.answers = s.answers ∧ u.registers = a.write s.registers := by
  refine ⟨_, runRoutine_cons_of_not_request ha acts hb, ?_⟩
  cases a with
  | request r => exact absurd rfl (ha r)
  | _ => exact ⟨hb, rfl, rfl, rfl, rfl, rfl⟩

/-- The registers and `PHASE` after a routine whose transfers all complete. -/
theorem runRoutine_registers_of_ok {acts : List HostAction} {s : State} {rest : List Answer} (hb : s.busy = false)
    (hw : s.cfg.pins.wf = true) (hphase : s.phase = 0 ∨ ∃ r, .request r ∈ acts)
    (hok : answersOk (transfers (routineEvents s.cfg s.bl acts)) rest s) :
    (runRoutine acts s).registers = written acts s.registers ∧ (runRoutine acts s).phase = 0 := by
  induction acts generalizing s with
  | nil => exact ⟨rfl, by simpa using hphase⟩
  | cons a acts ih =>
    by_cases ha : ∃ r, a = .request r
    · obtain ⟨r, rfl⟩ := ha
      rw [answersOk, transfers_routineEvents_request, List.replicate_add, List.append_assoc] at hok
      obtain ⟨u, hrun, hub, hzero, hcfg, hbl, hans, hreg⟩ := runRoutine_request_answered acts hw hok
      rw [hrun]
      simpa [hreg, written] using ih hub (hcfg ▸ hw) (.inl hzero) (by rw [answersOk, hans, hcfg, hbl])
    · have hna := not_exists.mp ha
      rw [answersOk, transfers_routineEvents_of_not_request hna] at hok
      obtain ⟨u, hrun, hub, hkept, hcfg, hbl, hans, hreg⟩ := runRoutine_of_not_request acts hna hb
      have hphase' : u.phase = 0 ∨ ∃ r, .request r ∈ acts := hkept ▸ hphase.imp_right fun ⟨r, hr⟩ =>
        ⟨r, (List.mem_cons.mp hr).resolve_left fun heq => hna r heq.symm⟩
      rw [hrun]
      simpa [hreg, written] using ih hub (hcfg ▸ hw) hphase' (by rw [answersOk, hans, hcfg, hbl, hok])

/-- The registers after a routine whose transfer `k` fails. -/
theorem runRoutine_registers_of_fail {acts : List HostAction} {s : State} {k : Nat} {e : ErrVal} {l : Bool}
    {rest : List Answer} (hb : s.busy = false) (hw : s.cfg.pins.wf = true)
    (hk : k < transfers (routineEvents s.cfg s.bl acts)) (hfail : answersFail k e l rest s) :
    (runRoutine acts s).registers = { written (begun acts k) s.registers with init := false } := by
  induction acts generalizing s k with
  | nil => cases hk
  | cons a acts ih =>
    by_cases ha : ∃ r, a = .request r
    · obtain ⟨r, rfl⟩ := ha
      rw [transfers_routineEvents_request] at hk
      rcases Nat.lt_or_ge k r.transferCount with hlt | hge
      · obtain ⟨before, b, -, hplay⟩ := requestPlay_fail (by rwa [transfers_encEvents_eq]) hfail
        rw [runRoutine_request_failed hw acts (by rw [hplay]), begun_request_of_lt hlt]
        simp [State.registers, State.played, takeXferFail, takeError, initAfter, written, HostAction.write,
          backlight_eq_encBl]
      · obtain ⟨j, rfl⟩ := Nat.exists_eq_add_of_le hge
        rw [answersFail, List.replicate_add, List.append_assoc] at hfail
        obtain ⟨u, hrun, hub, -, hcfg, hbl, hans, hreg⟩ := runRoutine_request_answered acts hw hfail
        rw [hrun, begun_request_add]
        simpa [hreg, written] using ih hub (hcfg ▸ hw) (by rw [hcfg, hbl]; omega) hans
    · have hna := not_exists.mp ha
      rw [transfers_routineEvents_of_not_request hna] at hk
      obtain ⟨u, hrun, hub, -, hcfg, hbl, hans, hreg⟩ := runRoutine_of_not_request acts hna hb
      rw [hrun, begun_of_not_request hna]
      simpa [hreg, written] using ih hub (hcfg ▸ hw) (by rwa [hcfg, hbl]) (hans.trans hfail)

theorem runRoutine_completes {acts : List HostAction} {s : State} {rest : List Answer} (hb : s.busy = false)
    (hw : s.cfg.pins.wf = true) (hphase : s.phase = 0 ∨ ∃ r, .request r ∈ acts)
    (hok : answersOk (transfers (routineEvents s.cfg s.bl acts)) rest s) :
    Completed s (runRoutine acts s) (routineEvents s.cfg s.bl acts) rest ∧
      (runRoutine acts s).registers = written acts s.registers := by
  have hplay := play_ok (noFail_routineEvents s.cfg s.bl acts) rest s.expOut
  rw [← hok] at hplay
  obtain ⟨htrace, hans, hout, hcfg, hrst, hgrain, hbusy, hhost, -, hprog⟩ := runRoutine_play acts hb hw hplay
  obtain ⟨hreg, hzero⟩ := runRoutine_registers_of_ok hb hw hphase hok
  exact ⟨⟨by simpa [Ending.response] using htrace, hans, hout, by simpa using hbusy, hzero, hhost (by simp),
    hprog (by simp), hcfg, hrst, hgrain⟩, hreg⟩

theorem runRoutine_fails {acts : List HostAction} {s : State} {k : Nat} {e : ErrVal} {l : Bool} {rest : List Answer}
    (hb : s.busy = false) (hw : s.cfg.pins.wf = true) (hk : k < transfers (routineEvents s.cfg s.bl acts))
    (hfail : answersFail k e l rest s) :
    Failed s (runRoutine acts s) (routineEvents s.cfg s.bl acts) k e l rest ∧
      (runRoutine acts s).registers = { written (begun acts k) s.registers with init := false } := by
  obtain ⟨before, a, b, hlast, hmem, hplay⟩ :=
    play_failAt (noFail_routineEvents s.cfg s.bl acts) hk e l rest s.expOut
  obtain rfl : a = s.cfg.i2cAddr := routineEvents_ofRoutine _ hmem
  rw [← hfail] at hplay
  obtain ⟨htrace, hans, hout, hcfg, hrst, hgrain, hbusy, hhost, hstop, -⟩ := runRoutine_play acts hb hw hplay
  obtain ⟨-, -, hzero⟩ := hstop e rfl
  exact ⟨⟨htrace, hans, ⟨before, b, hlast, hout⟩, by simpa using hbusy, hzero, hhost (by simp), hcfg, hrst, hgrain⟩,
    runRoutine_registers_of_fail hb hw hk hfail⟩

/-- What a pseudo-operation of `n` transfers comes to at the whole grain when all of them complete, and when the `k`-th
fails. -/
theorem exec_pseudo_by_verdicts {s : State} {i : Instr} {acts : List HostAction} {evs : List Event} {n : Nat}
    (rest : List Answer) (hready : s.ready = true) (hgrain : s.grain = .whole) (hw : s.cfg.pins.wf = true)
    (hi : i.isPseudo = true) (he : expansion s i = some acts) (hphase : s.phase = 0 ∨ ∃ r, .request r ∈ acts)
    (hevs : routineEvents s.cfg s.bl acts = evs) (hn : transfers evs = n) :
    (answersOk n rest s → ∃ t, exec i s = .next t ∧ Completed s t evs rest ∧
      t.registers = written acts s.registers) ∧
    (∀ k e l, k < n → answersFail k e l rest s → ∃ t, exec i s = .next t ∧ Failed s t evs k e l rest ∧
      t.registers = { written (begun acts k) s.registers with init := false }) := by
  subst hevs hn
  obtain ⟨hb, -⟩ := s.ready_iff.mp hready
  rw [exec_of_pseudo hready hi he, beginRoutine_whole hgrain]
  exact ⟨fun hok => ⟨_, rfl, runRoutine_completes hb hw hphase hok⟩,
    fun k e l hk hfail => ⟨_, rfl, runRoutine_fails hb hw hk hfail⟩⟩

theorem failAt_append_of_lt {xs : List Event} {k : Nat} (hk : k < transfers xs) (ys : List Event) (e : ErrVal) :
    failAt (xs ++ ys) k e = failAt xs k e := by
  induction xs generalizing k with
  | nil => cases hk
  | cons ev evs ih =>
    cases ev with
    | xfer a b =>
      cases k with
      | zero => rfl
      | succ k => simp [failAt, ih (k := k) (by simpa using hk)]
    | xfail a b e' => simp [failAt, ih (k := k) (by simpa [transfers] using hk)]
    | wait n => simp [failAt, ih (k := k) (by simpa using hk)]
    | rsp r => simp [failAt, ih (k := k) (by simpa using hk)]

/-- What would follow the failed transfer does not matter. -/
theorem Failed.of_append {s t : State} {xs ys : List Event} {k : Nat} {e : ErrVal} {l : Bool} {rest : List Answer}
    (h : Failed s t (xs ++ ys) k e l rest) (hk : k < transfers xs) : Failed s t xs k e l rest := by
  have hcut := failAt_append_of_lt hk ys e
  exact { h with trace := hcut ▸ h.trace, expOut := hcut ▸ h.expOut }

/-! ## Operations of one command (R121, R122, R124 to R129, R132 to R135) -/

/-- A routine whose only transfers are those of one command. -/
theorem exec_command_by_verdicts {s : State} {i : Instr} {acts : List HostAction} {b : Byte} {tail : List Event}
    {g : Registers} (rest : List Answer) (hready : s.ready = true) (hgrain : s.grain = .whole)
    (hw : s.cfg.pins.wf = true) (hi : i.isPseudo = true) (he : expansion s i = some acts)
    (hmem : .request (.cmd b) ∈ acts)
    (hevs : routineEvents s.cfg s.bl acts = encEvents s.cfg s.bl (.cmd b) ++ tail) (htail : transfers tail = 0)
    (hdone : written acts s.registers = g) (hbegun : ∀ k < 6, written (begun acts k) s.registers = g) :
    (answersOk 6 rest s → ∃ t, exec i s = .next t ∧
      Completed s t (encEvents s.cfg s.bl (.cmd b) ++ tail) rest ∧ t.registers = g) ∧
    (∀ k e l, k < 6 → answersFail k e l rest s → ∃ t, exec i s = .next t ∧
      Failed s t (encEvents s.cfg s.bl (.cmd b)) k e l rest ∧ t.registers = { g with init := false }) := by
  have hn : transfers (encEvents s.cfg s.bl (.cmd b)) = 6 := transfers_encEvents _ _ _
  obtain ⟨hok, hfail⟩ := exec_pseudo_by_verdicts (n := 6) rest hready hgrain hw hi he (.inr ⟨_, hmem⟩) hevs
    (by rw [transfers_append, hn, htail])
  refine ⟨hdone ▸ hok, fun k e l hk hverdicts => ?_⟩
  obtain ⟨t, hx, hstopped, hreg⟩ := hfail k e l hk hverdicts
  exact ⟨t, hx, hstopped.of_append (hn ▸ hk), hbegun k hk ▸ hreg⟩

/-- Settles O33: the wait is after the response, and so behind every transfer that can fail. -/
theorem clearAndHomeCompleteWithTheWait : Obligations.ClearAndHomeCompleteWithTheWait := by
  intro s rest i b hready hgrain hw hmem
  obtain ⟨hi, he⟩ : i.isPseudo = true ∧
      expansion s i = some [.request (.cmd b), .hwait s.cfg.delays.tLongCmd] := by
    simp only [List.mem_cons, Prod.mk.injEq, List.not_mem_nil, or_false] at hmem
    rcases hmem with ⟨rfl, rfl⟩ | ⟨rfl, rfl⟩ <;> exact ⟨rfl, rfl⟩
  have hbegun (k : Nat) (hk : k < 6) :
      written (begun [.request (.cmd b), .hwait s.cfg.delays.tLongCmd] k) s.registers = s.registers := by
    rw [begun_request_of_lt (r := .cmd b) hk]
    rfl
  simpa only [State.registers_eq_iff_sameShadow, State.registers_eq_iff_initCleared] using
    exec_command_by_verdicts (tail := [.rsp .ok, .wait s.cfg.delays.tLongCmd]) (g := s.registers) rest hready hgrain hw
      hi he List.mem_cons_self rfl rfl rfl hbegun

/-- The action writes a flag group. -/
def HostAction.writesGroup : HostAction → Bool
  | .setFs _ | .setDc _ | .setEm _ => true
  | .request _ | .hwait _ | .markInit => false

/-- In `s`, the instruction is the update `a` of one flag group and then the command `b` (R120). -/
structure Updates (s : State) (i : Instr) (a : HostAction) (b : Byte) : Prop where
  pseudo : i.isPseudo = true
  expansion : expansion s i = some (updateThenSend a b)
  group : a.writesGroup = true

theorem exec_update_by_verdicts {s : State} {i : Instr} {a : HostAction} {b : Byte} (rest : List Answer)
    (hready : s.ready = true) (hgrain : s.grain = .whole) (hw : s.cfg.pins.wf = true) (h : Updates s i a b) :
    (answersOk 6 rest s → ∃ t, exec i s = .next t ∧
      Completed s t (encEvents s.cfg s.bl (.cmd b) ++ [.rsp .ok]) rest ∧ t.registers = a.write s.registers) ∧
    (∀ k e l, k < 6 → answersFail k e l rest s → ∃ t, exec i s = .next t ∧
      Failed s t (encEvents s.cfg s.bl (.cmd b)) k e l rest ∧
      t.registers = { a.write s.registers with init := false }) := by
  obtain ⟨hi, he, hgroup⟩ := h
  have ha (r : Request) : a ≠ .request r := by rintro rfl; cases hgroup
  refine exec_command_by_verdicts rest hready hgrain hw hi he (by simp [updateThenSend]) ?_ rfl rfl fun k hk => ?_
  · cases a <;> cases hgroup <;> rfl
  · rw [updateThenSend, begun_of_not_request ha, begun_request_of_lt (r := .cmd b) hk]
    rfl

/-- The display-control operations, and what each makes of `DC` (R124 to R129). -/
def dcUpdates (dc : DisplayControl) : List (Instr × DisplayControl) :=
  [(.noDisplay, { dc with d := false }), (.display, { dc with d := true }),
    (.noCursor, { dc with c := false }), (.cursor, { dc with c := true }),
    (.noBlink, { dc with b := false }), (.blink, { dc with b := true })]

/-- The entry-mode operations, and what each makes of `EM` (R132 to R135). -/
def emUpdates (em : EntryMode) : List (Instr × EntryMode) :=
  [(.leftToRight, { em with i := true }), (.rightToLeft, { em with i := false }),
    (.autoscroll, { em with s := true }), (.noAutoscroll, { em with s := false })]

theorem updates_of_mem_dcUpdates {s : State} {i : Instr} {v : DisplayControl} (h : (i, v) ∈ dcUpdates s.dc) :
    Updates s i (.setDc v) (dcByte s.cfg.cmd v) := by
  simp only [dcUpdates, List.mem_cons, Prod.mk.injEq, List.not_mem_nil, or_false] at h
  rcases h with ⟨rfl, rfl⟩ | ⟨rfl, rfl⟩ | ⟨rfl, rfl⟩ | ⟨rfl, rfl⟩ | ⟨rfl, rfl⟩ | ⟨rfl, rfl⟩ <;> exact ⟨rfl, rfl, rfl⟩

theorem updates_of_mem_emUpdates {s : State} {i : Instr} {v : EntryMode} (h : (i, v) ∈ emUpdates s.em) :
    Updates s i (.setEm v) (emByte s.cfg.cmd v) := by
  simp only [emUpdates, List.mem_cons, Prod.mk.injEq, List.not_mem_nil, or_false] at h
  rcases h with ⟨rfl, rfl⟩ | ⟨rfl, rfl⟩ | ⟨rfl, rfl⟩ | ⟨rfl, rfl⟩ <;> exact ⟨rfl, rfl, rfl⟩

/-- Settles O36: each of the six writes its one field of `DC` and sends the group. -/
theorem displayControlOperations : Obligations.DisplayControlOperations := by
  intro s rest i v hready hgrain hw hmem
  simpa only [State.registers, HostAction.write, Registers.mk.injEq] using
    exec_update_by_verdicts rest hready hgrain hw (updates_of_mem_dcUpdates hmem)

/-- Settles O38: each of the four writes its one field of `EM` and sends the group. -/
theorem entryModeOperations : Obligations.EntryModeOperations := by
  intro s rest i v hready hgrain hw hmem
  simpa only [State.registers, HostAction.write, Registers.mk.injEq] using
    exec_update_by_verdicts rest hready hgrain hw (updates_of_mem_emUpdates hmem)

/-! ## An operation and the one that undoes it (R144) -/

/-- Two updates one after the other, where the second undoes the first. -/
theorem exec_update_undone {s : State} {first second : Instr} {a back : HostAction} {b byte : Byte} {rest : List Answer}
    (hready : s.ready = true) (hgrain : s.grain = .whole) (hw : s.cfg.pins.wf = true) (hok : answersOk 12 rest s)
    (hfirst : Updates s first a b)
    (hsecond : ∀ t : State, t.cfg = s.cfg → t.registers = a.write s.registers → Updates t second back byte)
    (hback : back.write (a.write s.registers) = s.registers) :
    ∃ t u, exec first s = .next t ∧ exec second t = .next u ∧ u.dc = s.dc ∧ u.em = s.em ∧
      u.trace = t.trace ++ encEvents s.cfg s.bl (.cmd byte) ++ [.rsp .ok] := by
  have hok' : answersOk 6 (List.replicate 6 .ok ++ rest) s := hok
  obtain ⟨t, hx, hdone, hreg⟩ := (exec_update_by_verdicts _ hready hgrain hw hfirst).1 hok'
  have hready' : t.ready = true := t.ready_iff.mpr ⟨hdone.busy, hdone.host⟩
  obtain ⟨u, hx', hdone', hreg'⟩ := (exec_update_by_verdicts rest hready' (hdone.grain.trans hgrain)
    (hdone.cfg ▸ hw) (hsecond t hdone.cfg hreg)).1 hdone.answers
  have hbl : t.bl = s.bl := by
    obtain ⟨-, -, hgroup⟩ := hfirst
    have hbl : t.bl = (a.write s.registers).bl := congrArg Registers.bl hreg
    cases a <;> cases hgroup <;> exact hbl
  obtain ⟨-, ⟨⟨hdc, hem, -⟩, -⟩⟩ := State.registers_eq_iff_sameShadow.mp (hreg'.trans (hreg ▸ hback))
  exact ⟨t, u, hx, hx', hdc, hem, by rw [hdone'.trace, hdone.cfg, hbl, List.append_assoc]⟩

theorem dcUpdates_undone {dc : DisplayControl} {first second : Instr}
    (h : (first, second) ∈ [if dc.d then (Instr.noDisplay, Instr.display) else (.display, .noDisplay),
      if dc.c then (.noCursor, .cursor) else (.cursor, .noCursor),
      if dc.b then (.noBlink, .blink) else (.blink, .noBlink)]) :
    ∃ v, (first, v) ∈ dcUpdates dc ∧ (second, dc) ∈ dcUpdates v := by
  obtain ⟨d, c, b⟩ := dc
  simp only [List.mem_cons, List.not_mem_nil, or_false] at h
  rcases h with h | h | h
  · exact ⟨⟨!d, c, b⟩, by cases d <;> cases h <;> simp [dcUpdates]⟩
  · exact ⟨⟨d, !c, b⟩, by cases c <;> cases h <;> simp [dcUpdates]⟩
  · exact ⟨⟨d, c, !b⟩, by cases b <;> cases h <;> simp [dcUpdates]⟩

theorem emUpdates_undone {em : EntryMode} {first second : Instr}
    (h : (first, second) ∈ [if em.i then (Instr.rightToLeft, Instr.leftToRight) else (.leftToRight, .rightToLeft),
      if em.s then (.noAutoscroll, .autoscroll) else (.autoscroll, .noAutoscroll)]) :
    ∃ v, (first, v) ∈ emUpdates em ∧ (second, em) ∈ emUpdates v := by
  obtain ⟨i, s⟩ := em
  simp only [List.mem_cons, List.not_mem_nil, or_false] at h
  rcases h with h | h
  · exact ⟨⟨!i, s⟩, by cases i <;> cases h <;> simp [emUpdates]⟩
  · exact ⟨⟨i, !s⟩, by cases s <;> cases h <;> simp [emUpdates]⟩

/-- Settles O47: the second operation writes back the group the first one found. -/
theorem doubleToggleRestoresTheGroup : Obligations.DoubleToggleRestoresTheGroup := by
  rintro s rest first second byte hready hgrain hw hok (⟨rfl, h⟩ | ⟨rfl, h⟩)
  · obtain ⟨v, hfirst, hsecond⟩ := dcUpdates_undone h
    refine exec_update_undone hready hgrain hw hok (updates_of_mem_dcUpdates hfirst) (back := .setDc s.dc)
      (fun t hcfg hreg => ?_) rfl
    have hdc : t.dc = v := congrArg Registers.dc hreg
    exact hcfg ▸ updates_of_mem_dcUpdates (hdc ▸ hsecond)
  · obtain ⟨v, hfirst, hsecond⟩ := emUpdates_undone h
    refine exec_update_undone hready hgrain hw hok (updates_of_mem_emUpdates hfirst) (back := .setEm s.em)
      (fun t hcfg hreg => ?_) rfl
    have hem : t.em = v := congrArg Registers.em hreg
    exact hcfg ▸ updates_of_mem_emUpdates (hem ▸ hsecond)

/-! ## Operations of one request (R123, R130, R131, R137, R138) -/

/-- A request that is answered inside a routine of its own leaves the machine it leaves by itself. -/
theorem runRoutine_single_request_of_idle {s : State} (r : Request) (hh : s.host = .direct)
    (hb : (runRequest r s).busy = false) : runRoutine [.request r] s = runRequest r s := by
  have hfirst : perform (.request r) (s.setHost (.routine [])) =
      (((s.setHost (.routine [])).accept r).played (s.opsPlay r) (BitVec.ofNat 4 (s.opsPlay r).events.length)).settle
        (s.opsPlay r).ending := runRequest_opsPlay r _
  rw [runRequest_opsPlay] at hb ⊢
  rw [runRoutine_cons, hfirst]
  cases hend : (s.opsPlay r).ending with
  | completed => simp [State.settle, State.played, State.setHost, State.accept, State.respond, hh]
  | failed e => rfl
  | waiting => rw [hend] at hb; cases hb

/-- What a pseudo-operation of one request of `n` transfers comes to at the whole grain. -/
theorem exec_single_request_by_verdicts {s : State} {i : Instr} {r : Request} {evs : List Event} {n : Nat}
    (rest : List Answer) (hready : s.ready = true) (hgrain : s.grain = .whole)
    (h : s.cfg.pins.wf = true ∨ r.seqKind = .zero) (hi : i.isPseudo = true)
    (he : expansion s i = some [.request r]) (hevs : encEvents s.cfg s.bl r = evs) (hn : transfers evs = n) :
    (answersOk n rest s → ∃ t, exec i s = .next t ∧ Completed s t (evs ++ [.rsp .ok]) rest ∧
      t.bl = encBl s.bl r ∧ SameShadow s t) ∧
    (∀ k e l, k < n → answersFail k e l rest s → ∃ t, exec i s = .next t ∧ Failed s t evs k e l rest ∧
      t.bl = encBl s.bl r ∧ InitCleared s t) := by
  obtain ⟨-, hh⟩ := s.ready_iff.mp hready
  have hrun {t : State} (hx : exec r.toInstr s = .next t) (hb : t.busy = false) : exec i s = .next t := by
    rw [exec_request hready, beginRequest_whole hgrain] at hx
    injection hx with hx
    rw [exec_of_pseudo hready hi he, beginRoutine_whole hgrain,
      runRoutine_single_request_of_idle r hh (by rw [hx, hb]), hx]
  obtain ⟨hok, hfail⟩ := exec_request_by_verdicts rest hready hgrain h hevs hn
  refine ⟨fun hv => ?_, fun k e l hk hv => ?_⟩
  · obtain ⟨t, hx, hdone, hregs⟩ := hok hv
    exact ⟨t, hrun hx hdone.busy, hdone, hregs⟩
  · obtain ⟨t, hx, hstopped, hregs⟩ := hfail k e l hk hv
    exact ⟨t, hrun hx hstopped.busy, hstopped, hregs⟩

/-- Settles O37: each scroll is the one CMD request of its byte. -/
theorem scrollOperations : Obligations.ScrollOperations := by
  intro s rest i b hready hgrain hw hmem
  obtain ⟨hi, he⟩ : i.isPseudo = true ∧ expansion s i = some [.request (.cmd b)] := by
    simp only [List.mem_cons, Prod.mk.injEq, List.not_mem_nil, or_false] at hmem
    rcases hmem with ⟨rfl, rfl⟩ | ⟨rfl, rfl⟩ <;>
      simp [Instr.isPseudo, expansion, scrollByte, cursorShiftByte, flagMask]
  exact exec_single_request_by_verdicts rest hready hgrain (.inl hw) hi he rfl rfl

/-- Settles O40: each backlight operation is its one BLW request. -/
theorem backlightOperations : Obligations.BacklightOperations := by
  intro s rest i b hready hgrain hmem
  obtain ⟨hi, he⟩ : i.isPseudo = true ∧ expansion s i = some [.request (.blw b)] := by
    simp only [List.mem_cons, Prod.mk.injEq, List.not_mem_nil, or_false] at hmem
    rcases hmem with ⟨rfl, rfl⟩ | ⟨rfl, rfl⟩ <;> exact ⟨rfl, rfl⟩
  obtain ⟨hok, hfail⟩ := exec_single_request_by_verdicts rest hready hgrain (.inr rfl) hi he rfl rfl
  exact ⟨hok, fun e l => hfail 0 e l Nat.one_pos⟩

/-- The address is in the table and at most 0x7F, or there is none (R123). -/
theorem cursorAddress_eq_some_iff {c : Config} {col row : Nat} {a : BitVec 7} :
    cursorAddress c col row = some a ↔
      ∃ off, c.rowOffset[clampRow c.rows row]? = some off ∧ col + off.toNat ≤ 0x7F ∧ a.toNat = col + off.toNat := by
  unfold cursorAddress
  cases c.rowOffset[clampRow c.rows row]? with
  | none => simp
  | some off =>
    by_cases hle : col + off.toNat ≤ 0x7F
    · simp only [hle, if_true, Option.some.injEq, exists_eq_left', true_and]
      constructor
      · rintro rfl
        simp; omega
      · intro ha
        exact BitVec.eq_of_toNat_eq (by simp; omega)
    · simp [hle]

theorem exec_setCursor_refused {s : State} {col row : Nat} (hready : s.ready = true)
    (h : cursorAddress s.cfg col row = none) : exec (.setCursor col row) s = .refused .setCursorOutOfDomain := by
  simp only [exec, execSetCursor, whenReady_of_ready hready, h]

/-- Settles O34: inside its domain `setCursor` is the one CMD request of its address. -/
theorem setCursorSendsItsAddress : Obligations.SetCursorSendsItsAddress := by
  rintro s col row _ rest hready hgrain hw rfl
  refine ⟨?_, fun hout => exec_setCursor_refused hready ?_⟩
  · rintro off a _ hoff hle ha rfl
    have haddr : cursorAddress s.cfg col row = some a := cursorAddress_eq_some_iff.mpr ⟨off, hoff, hle, ha⟩
    have he : expansion s (.setCursor col row) = some [.request (.cmd (ddramByte s.cfg.cmd a))] := by
      simp only [expansion, haddr, Option.map_some]
    exact exec_single_request_by_verdicts rest hready hgrain (.inl hw) rfl he rfl rfl
  · refine Option.eq_none_iff_forall_ne_some.mpr fun a haddr => ?_
    obtain ⟨off, hoff, hle, -⟩ := cursorAddress_eq_some_iff.mp haddr
    exact absurd hle (Nat.not_le_of_lt (hout off hoff))

/-- Settles O35: the clamp and the table, row by row. -/
theorem cursorAddressOfTheDefaultTable : Obligations.CursorAddressOfTheDefaultTable := by
  intro c col row htable hmin hmax
  refine ⟨fun hle hlt => ?_, fun hrow hrows => ?_, fun hgt => ?_⟩
  · have hclamp : clampRow c.rows row = row := if_neg (Nat.not_lt_of_le hle)
    rw [cursorAddress, hclamp, htable]
    interval_cases row <;> rfl
  · have hclamp : clampRow c.rows row = 4 := by simp [clampRow, hrow, hrows]
    rw [cursorAddress, hclamp, htable]
    rfl
  · have hclamp : clampRow c.rows row = clampRow c.rows (c.rows - 1) := by simp [clampRow]; omega
    rw [cursorAddress, hclamp]
    rfl

/-! ## Refusals (R123; 92_eei_decisions.md D16, D17) -/

/-- Settles O46: a refusal is the one case of `exec` in which there is no expansion. -/
theorem refusedExactlyOutsideTheDomain : Obligations.RefusedExactlyOutsideTheDomain := by
  intro s i hready
  refine ⟨exec_ne_fault i s, ?_⟩
  rcases exec_of_ready hready i with ⟨r, -, he, hx⟩ | ⟨acts, -, he, hx⟩ | ⟨-, he, e, hx⟩
  · simp [he, hx]
  · simp [he, hx]
  · simp [he, hx]

/-! ## Operations of data requests (R136, R139, R140) -/

/-- Command and data requests write no register. -/
theorem written_of_sends {acts : List HostAction} (h : ∀ a ∈ acts, ∃ v, a = .request (.dat v) ∨ a = .request (.cmd v))
    (g : Registers) : written acts g = g := by
  refine written_eq_self fun a ha => ?_
  obtain ⟨v, rfl | rfl⟩ := h a ha <;> rfl

/-- What a pseudo-operation of nothing but command and data requests comes to. -/
theorem exec_sends_by_verdicts {s : State} {i : Instr} {acts : List HostAction} {evs : List Event} {n : Nat}
    (rest : List Answer) (hready : s.ready = true) (hgrain : s.grain = .whole) (hw : s.cfg.pins.wf = true)
    (hi : i.isPseudo = true) (he : expansion s i = some acts) (hphase : s.phase = 0 ∨ ∃ r, .request r ∈ acts)
    (hsends : ∀ a ∈ acts, ∃ v, a = .request (.dat v) ∨ a = .request (.cmd v))
    (hevs : routineEvents s.cfg s.bl acts = evs) (hn : transfers evs = n) :
    (answersOk n rest s → ∃ t, exec i s = .next t ∧ Completed s t evs rest ∧ t.bl = s.bl ∧ SameShadow s t) ∧
    (∀ k e l, k < n → answersFail k e l rest s → ∃ t, exec i s = .next t ∧ Failed s t evs k e l rest ∧
      t.bl = s.bl ∧ InitCleared s t) := by
  have hbegun (k : Nat) : written (begun acts k) s.registers = s.registers :=
    written_of_sends (fun a ha => hsends a ((begun_prefix acts k).subset ha)) _
  simpa only [written_of_sends hsends, hbegun, State.registers_eq_iff_sameShadow,
    State.registers_eq_iff_initCleared] using
    exec_pseudo_by_verdicts rest hready hgrain hw hi he hphase hevs hn

theorem toNat_glyphAddress (location : Nat) : (glyphAddress location).toNat = 8 * (location % 8) := by
  have hmask : location &&& 0x7 = location % 8 := Nat.and_two_pow_sub_one_eq_mod location 3
  rw [glyphAddress, hmask, BitVec.toNat_ofNat, Nat.shiftLeft_eq]
  omega

/-- The glyph's address is that of the location mod 8 (R136). -/
theorem exec_createChar_mod (location : Nat) (bitmap : List Byte) (s : State) (hready : s.ready = true) :
    exec (.createChar location bitmap) s = exec (.createChar (location % 8) bitmap) s := by
  have haddr : glyphAddress (location % 8) = glyphAddress location :=
    BitVec.eq_of_toNat_eq (by simp only [toNat_glyphAddress, Nat.mod_mod])
  have he : expansion s (.createChar location bitmap) = expansion s (.createChar (location % 8) bitmap) := by
    simp only [expansion, haddr]
  rw [exec_of_pseudo hready rfl rfl, exec_of_pseudo hready rfl he.symm]

/-- Settles O39: the address and the bytes are command and data requests. -/
theorem createCharSendsAddressAndBitmap : Obligations.CreateCharSendsAddressAndBitmap := by
  intro s location bitmap a rest evs hready hgrain hw ha hevs
  obtain rfl : a = glyphAddress location := BitVec.eq_of_toNat_eq (ha.trans (toNat_glyphAddress location).symm)
  have hroutine : routineEvents s.cfg s.bl (.request (.cmd (cgramByte s.cfg.cmd (glyphAddress location))) ::
      bitmap.map fun b => .request (.dat b)) = evs := by
    rw [hevs, routineEvents, encBl, routineEvents_dat]
    rfl
  have hn : transfers evs = 6 + 6 * bitmap.length := by
    rw [hevs, transfers_append, transfers_rsp, transfers_flatMap_dat, transfers_encEvents]
  obtain ⟨hok, hfail⟩ := exec_sends_by_verdicts (i := .createChar location bitmap) rest hready hgrain hw rfl rfl
    (.inr ⟨_, List.mem_cons_self⟩) (by simp) hroutine hn
  exact ⟨hok, hfail, exec_createChar_mod location bitmap s hready⟩

theorem textBytes_map_toNat (text : List Byte) : textBytes (text.map BitVec.toNat) = some text := by
  have hfit : ∀ b ∈ text, b.toNat < 256 := fun b _ => b.isLt
  simpa [textBytes, Function.comp_def] using hfit

theorem exec_print_refused {s : State} {text : List Nat} (hready : s.ready = true) (h : ∃ c ∈ text, 256 ≤ c) :
    exec (.print text) s = .refused .wideCharacter := by
  have hnone : textBytes text = none := by simpa [textBytes] using h
  simp only [exec, execPrint, whenReady_of_ready hready, hnone]

/-- Settles O41: a text, or the one byte of `write`, is data requests. -/
theorem printAndWriteSendData : Obligations.PrintAndWriteSendData := by
  intro s rest data hready hgrain hphase hw hdata
  refine ⟨fun text i hi => ?_, fun text hwide => exec_print_refused hready hwide⟩
  obtain ⟨hpseudo, he⟩ : i.isPseudo = true ∧ expansion s i = some (text.map fun b => .request (.dat b)) := by
    rcases hi with rfl | ⟨v, rfl, rfl⟩
    · exact ⟨rfl, by simp only [expansion, textBytes_map_toNat, Option.map_some]⟩
    · exact ⟨rfl, rfl⟩
  refine exec_sends_by_verdicts rest hready hgrain hw hpseudo he (.inl hphase) (by simp) ?_ ?_
  · rw [routineEvents_dat, hdata]
  · rw [hdata, transfers_flatMap_dat]

/-! ## The boot routine (R141) -/

/-- Where a failure finds the boot routine: `FS` is written before transfer 13, `DC` before 19 and `EM` before 31. -/
theorem written_begun_bootActions (s : State) {k : Nat} (hk : k < 43) :
    written (begun (bootActions s.cfg) k) s.registers =
      { s.registers with
        fs := if 13 ≤ k then functionSetOf s.cfg else s.fs
        dc := if 19 ≤ k then bootDc else s.dc
        em := if 31 ≤ k then bootEm else s.em } := by
  interval_cases k <;> rfl

theorem waitTime_wait (n : Micros) (evs : List Event) : waitTime (.wait n :: evs) = n + waitTime evs := by
  simp [waitTime]

theorem waitTime_rsp (r : Response) (evs : List Event) : waitTime (.rsp r :: evs) = waitTime evs := by
  simp [waitTime]

/-- Settles O42: the eight steps are a routine of 43 transfers. -/
theorem bootRoutineCompletes : Obligations.BootRoutineCompletes := by
  intro s rest req evs fs hready hgrain hw hreq hfs hevs
  obtain rfl : fs = functionSetOf s.cfg := by rw [hfs, functionSetOf, Bool.decide_and]
  have hroutine : routineEvents s.cfg s.bl (bootActions s.cfg) = evs := by
    simp [hevs, hreq, bootActions, routineEvents, encBl, bootDc, bootEm]
  have hn : transfers evs = 43 := by simp [hevs, hreq, transfers_encEvents]
  obtain ⟨hok, hfail⟩ := exec_pseudo_by_verdicts (i := .initializeOp) (acts := bootActions s.cfg) rest hready hgrain hw
    rfl rfl (.inr ⟨.xwr, by simp [bootActions]⟩) hroutine hn
  refine ⟨hn, fun hdelays => ?_, fun h => ?_, fun k e l hk h => ?_⟩
  · have hnil : waitTime [] = 0 := rfl
    have hreqTime (r : Request) := waitTime_encEvents hdelays s.bl r
    simp only [hdelays, Delays.standard] at hevs
    simp [hevs, hreq, hreqTime, waitTime_wait, waitTime_rsp, hnil]
  · obtain ⟨t, hx, hdone, hreg⟩ := hok h
    injection hreg with hbl hdc hem hfs hinit
    exact ⟨t, hx, hdone, hbl, hfs, hdc, hem, hinit⟩
  · obtain ⟨t, hx, hstopped, hreg⟩ := hfail k e l hk h
    rw [written_begun_bootActions s hk] at hreg
    injection hreg with hbl hdc hem hfs hinit
    exact ⟨t, hx, hstopped, hbl, hinit, hfs, hdc, hem⟩

/-! ## A pseudo-operation that meets a failure (R30, R120, R168) -/

/-- A play that fails ends with the failed transfer, and up to it all went well. -/
theorem play_failed_split {evs : List Event} {ans : List Answer} {out : Byte} {e : ErrVal}
    (h : (play evs ans out).ending = .failed e) :
    ∃ before a b, (play evs ans out).events = before ++ [.xfail a b e] ∧ before <+: evs := by
  induction evs generalizing ans out with
  | nil => simp at h
  | cons ev evs ih =>
    have hlater {ans : List Answer} {out : Byte} (h : (play evs ans out).ending = .failed e) :
        ∃ before a b, ev :: (play evs ans out).events = before ++ [.xfail a b e] ∧ before <+: ev :: evs := by
      obtain ⟨before, a, b, hsplit, hprefix⟩ := ih h
      exact ⟨ev :: before, a, b, by rw [hsplit]; rfl, List.cons_prefix_cons.mpr ⟨rfl, hprefix⟩⟩
    cases ev with
    | xfer a b =>
      rcases ans with _ | ⟨_ | ⟨e', l⟩, rest⟩
      · simp at h
      · simp only [play_xfer_ok] at h ⊢
        exact hlater h
      · obtain rfl : e' = e := by simpa using h
        exact ⟨[], a, b, by simp, List.nil_prefix⟩
    | xfail a b e' =>
      simp only [play] at h ⊢
      exact hlater h
    | wait n =>
      simp only [play_wait] at h ⊢
      exact hlater h
    | rsp r =>
      simp only [play_rsp] at h ⊢
      exact hlater h

theorem rsp_xferFail_not_mem_routineEvents (c : Config) (bl : Bool) (acts : List HostAction) (e : ErrVal) :
    .rsp (.xferFail e) ∉ routineEvents c bl acts := fun h => by
  cases (routineEvents_ofRoutine _ h : Response.xferFail e = .ok)

theorem rsp_xferFail_not_mem_play (c : Config) (bl : Bool) (acts : List HostAction) (e : ErrVal) (ans : List Answer)
    (out : Byte) : .rsp (.xferFail e) ∉ (play (routineEvents c bl acts) ans out).events := fun h => by
  rcases mem_of_mem_play h with hmem | ⟨a, b, e', heq, -⟩
  · exact rsp_xferFail_not_mem_routineEvents c bl acts e hmem
  · cases heq

/-- Where the new events of a routine hold a failure, its play has failed, and the routine has stopped there. -/
theorem runRoutine_stopped_at_failure {acts : List HostAction} {s : State} {evs : List Event} {e : ErrVal}
    (hb : s.busy = false) (hw : s.cfg.pins.wf = true) (htrace : (runRoutine acts s).trace = s.trace ++ evs)
    (hmem : .rsp (.xferFail e) ∈ evs) :
    (runRoutine acts s).init = false ∧ (runRoutine acts s).host = .direct ∧ (runRoutine acts s).busy = false ∧
      (runRoutine acts s).phase = 0 ∧
      ∃ before a b, evs = before ++ [.xfail a b e, .rsp (.xferFail e)] ∧ ∀ e', .rsp (.xferFail e') ∉ before := by
  obtain ⟨htrace', -, -, -, -, -, hbusy, hhost, hstop, -⟩ := runRoutine_play acts hb hw rfl
  rw [htrace, List.append_assoc, List.append_cancel_left_eq] at htrace'
  have hresponse : .rsp (.xferFail e) ∈ (play (routineEvents s.cfg s.bl acts) s.answers s.expOut).ending.response :=
    (List.mem_append.mp (htrace' ▸ hmem)).resolve_left (rsp_xferFail_not_mem_play _ _ _ _ _ _)
  cases hend : (play (routineEvents s.cfg s.bl acts) s.answers s.expOut).ending with
  | completed => rw [hend] at hresponse; cases hresponse
  | waiting => rw [hend] at hresponse; cases hresponse
  | failed e' =>
    rw [hend] at htrace' hresponse hbusy hhost
    obtain rfl : e = e' := by simpa [Ending.response] using hresponse
    obtain ⟨hinit, -, hphase⟩ := hstop e hend
    obtain ⟨before, a, b, hsplit, hprefix⟩ := play_failed_split hend
    refine ⟨hinit, hhost (by simp), by simpa using hbusy, hphase, before, a, b, ?_, fun e' h => ?_⟩
    · rw [htrace', hsplit, Ending.response, List.append_assoc]
      rfl
    · exact rsp_xferFail_not_mem_routineEvents _ _ _ e' (hprefix.subset h)

/-- Settles O43: a pseudo-operation that has met a failure has run as a routine, at the whole grain. -/
theorem pseudoOperationFailureStopsIt : Obligations.PseudoOperationFailureStopsIt := by
  intro s t i evs e hready hw hi hx htrace hmem
  obtain ⟨hb, -⟩ := s.ready_iff.mp hready
  rcases exec_of_ready hready i with ⟨-, hi', -⟩ | ⟨acts, -, -, hx'⟩ | ⟨-, -, refusal, hx'⟩
  · simp [hi] at hi'
  · obtain rfl : beginRoutine acts s = t := by simpa [hx'] using hx
    cases hg : s.grain with
    | micro =>
      rw [beginRoutine_micro hg] at htrace
      obtain rfl : evs = [] := by simpa using htrace
      cases hmem
    | whole =>
      rw [beginRoutine_whole hg] at htrace ⊢
      exact runRoutine_stopped_at_failure hb hw htrace hmem
  · simp [hx'] at hx

end Sys2Proof.Machine

namespace Sys2Proof.Machine

/-! ## Reset (R180 to R182) -/

theorem State.outstanding_of_idle {s : State} (hb : s.busy = false) : s.outstanding = none := by
  simp [State.outstanding, hb]

theorem State.outstanding_of_wait {s : State} {n : Micros} {ops : List MicroOp} (hb : s.busy = true)
    (hrem : s.remaining = .wait n :: ops) : s.outstanding = none := by
  simp [State.outstanding, hb, hrem]

theorem State.outstanding_of_transfer {s : State} {d : Byte} {ops : List MicroOp} (hb : s.busy = true)
    (hrem : s.remaining = .transfer d :: ops) : s.outstanding = some (merge s.cfg.pins s.bl d) := by
  simp [State.outstanding, hb, hrem]

theorem step_of_reset {s : State} {d : ResetDraw} (hr : s.rst = .asserted d) : step s = .next (blockReset d s) := by
  simp [step, hr]

/-- Only a transfer that is outstanding can reach the expander during a reset (R182). -/
theorem blockReset_expOut (d : ResetDraw) (s : State) :
    (blockReset d s).expOut = if d.latched then s.outstanding.getD s.expOut else s.expOut := rfl

/-- Settles O12: the registers are those of `blockReset`, and the expander's byte depends on what is outstanding. -/
theorem resetDropsTheRequestInProgress : Obligations.ResetDropsTheRequestInProgress := by
  intro s d hr
  refine ⟨blockReset d s, step_of_reset hr, rfl, rfl, rfl, rfl, rfl, rfl, rfl, rfl, rfl, rfl, rfl, rfl, rfl, rfl, rfl,
    rfl, rfl, fun hb => ?_, fun n rest hb hrem => ?_, fun b rest hb hrem => ?_⟩
  · simp [blockReset_expOut, State.outstanding_of_idle hb]
  · simp [blockReset_expOut, State.outstanding_of_wait hb hrem]
  · simp [blockReset_expOut, State.outstanding_of_transfer hb hrem]

/-! ## The boot routine comes first (R183, R190, R197) -/

/-- `BootFirst` with the reset line left aside: `INIT` is 1, or the host is inside the boot routine, or what it presents
has the boot routine first. -/
def State.BootOrder (s : State) : Prop := s.mayRun s.program = true

theorem State.bootOrder_iff (s : State) :
    s.BootOrder ↔ s.init = true ∨ s.booting = true ∨ bootsFirst s.program = true := by
  simp [State.BootOrder, State.mayRun, or_assoc]

theorem State.bootOrder_of_init {s : State} (h : s.init = true) : s.BootOrder := s.bootOrder_iff.mpr (.inl h)

/-- A host that presents nothing has nothing before the boot routine: so it is after a failure and a reset. -/
theorem State.bootOrder_of_nothing_presented {s : State} (h : s.program = []) : s.BootOrder :=
  s.bootOrder_iff.mpr (.inr (.inr (by rw [h]; rfl)))

theorem State.booting_of_direct {s : State} (h : s.host = .direct) : s.booting = false := by
  simp [State.booting, h]

/-- A host in no routine may enter any. -/
theorem State.BootOrder.setHost {s : State} (h : s.BootOrder) (hh : s.host = .direct) (r : HostRoutine) :
    (s.setHost r).BootOrder := by
  rw [State.bootOrder_iff, State.booting_of_direct hh] at h
  exact (s.setHost r).bootOrder_iff.mpr (h.imp_right fun h => .inr (h.resolve_left (by simp)))

/-- A host that has nothing left of its routine is not inside the boot routine. -/
theorem State.BootOrder.leave {s : State} (h : s.BootOrder) (hh : s.host = .routine []) :
    (s.setHost .direct).BootOrder := by
  simpa [State.bootOrder_iff, State.booting, hh] using h

/-- Inside the boot routine, the host stays inside it until it comes to `INIT <- 1`. -/
theorem State.BootOrder.tail {s : State} {a : HostAction} {rest : List HostAction} (h : s.BootOrder)
    (hh : s.host = .routine (a :: rest)) (ha : a ≠ .markInit) : (s.setHost (.routine rest)).BootOrder := by
  simpa [State.bootOrder_iff, State.booting, hh, ha.symm] using h

/-! ### The block and the host's routine -/

/-- A request leaves the host's side alone, or fails and drops what is presented (log 12). -/
theorem runOps_keeps_bootOrder (ops : List MicroOp) {s : State} (h : s.BootOrder) : (runOps ops s).BootOrder := by
  rw [runOps_eq]
  generalize play _ _ _ = p
  rcases p.ending with _ | e | _
  · exact h
  · exact State.bootOrder_of_nothing_presented rfl
  · exact h

theorem microStep_keeps_bootOrder {s : State} (h : s.BootOrder) : (microStep s).BootOrder := by
  rcases microStep_played s with ⟨p, hm⟩ | ⟨p, -, -, -, -, hm⟩ | ⟨p, e, hm⟩ | hm <;> rw [hm]
  · exact h
  · exact h
  · exact State.bootOrder_of_nothing_presented rfl
  · exact h

theorem runRequest_keeps_bootOrder (r : Request) {s : State} (h : s.BootOrder) : (runRequest r s).BootOrder :=
  runOps_keeps_bootOrder _ (s := s.accept r) h

theorem perform_keeps_bootOrder {s : State} {a : HostAction} {rest : List HostAction} (h : s.BootOrder)
    (hh : s.host = .routine (a :: rest)) : (perform a (s.setHost (.routine rest))).BootOrder := by
  cases a with
  | markInit => exact State.bootOrder_of_init rfl
  | request r => exact runRequest_keeps_bootOrder r (h.tail hh (by simp))
  | _ => exact h.tail hh (by simp)

theorem startAction_keeps_bootOrder {s : State} {a : HostAction} {rest : List HostAction} (h : s.BootOrder)
    (hh : s.host = .routine (a :: rest)) : (startAction a (s.setHost (.routine rest))).BootOrder := by
  cases a with
  | request r => exact h.tail hh (by simp)
  | _ => exact perform_keeps_bootOrder h hh

theorem runRoutine_keeps_bootOrder {acts : List HostAction} {s : State} (h : s.BootOrder)
    (hh : s.host = .routine acts) : (runRoutine acts s).BootOrder := by
  induction acts generalizing s with
  | nil => exact h.leave hh
  | cons a rest ih =>
    have hfirst := perform_keeps_bootOrder h hh
    rcases runRoutine_cons_cases a rest s with hrun | ⟨-, hhost, hrun⟩ <;> rw [hrun]
    · exact hfirst
    · exact ih hfirst hhost

theorem resume_keeps_bootOrder {s : State} (h : s.BootOrder) : (resume s).BootOrder := by
  have hblock : (runBlock s).BootOrder := runOps_keeps_bootOrder _ h
  simp only [resume]
  split
  next rest _ hhost => exact runRoutine_keeps_bootOrder hblock hhost
  next => exact hblock

/-! ### The instructions and the step -/

theorem goOn_keeps_bootOrder {s : State} (h : s.BootOrder) : (goOn s).BootOrder := by
  cases hg : s.grain with
  | whole => rw [goOn_whole hg]; exact resume_keeps_bootOrder h
  | micro => rw [goOn_micro hg]; exact microStep_keeps_bootOrder h

theorem goOnRoutine_keeps_bootOrder {s : State} {acts : List HostAction} (h : s.BootOrder)
    (hh : s.host = .routine acts) : (goOnRoutine acts s).BootOrder := by
  cases hg : s.grain with
  | whole => rw [goOnRoutine_whole hg]; exact runRoutine_keeps_bootOrder h hh
  | micro =>
    cases acts with
    | nil => rw [goOnRoutine_micro_nil hg]; exact h.leave hh
    | cons a rest => rw [goOnRoutine_micro_cons hg]; exact startAction_keeps_bootOrder h hh

theorem beginRequest_keeps_bootOrder (r : Request) {s : State} (h : s.BootOrder) : (beginRequest r s).BootOrder := by
  cases hg : s.grain with
  | whole => rw [beginRequest_whole hg]; exact runRequest_keeps_bootOrder r h
  | micro => rw [beginRequest_micro hg]; exact h

/-- A routine may be begun where the host, once inside it, is in order: the boot routine always (R183). -/
theorem beginRoutine_bootOrder {s : State} {acts : List HostAction} (h : (s.setHost (.routine acts)).BootOrder) :
    (beginRoutine acts s).BootOrder := by
  cases hg : s.grain with
  | whole =>
    rw [beginRoutine_whole hg, ← runRoutine_setHost acts s (.routine acts)]
    exact runRoutine_keeps_bootOrder h rfl
  | micro => rw [beginRoutine_micro hg]; exact h

theorem exec_keeps_bootOrder {i : Instr} {s t : State} (hready : s.ready = true) (h : s.BootOrder)
    (hx : exec i s = .next t) : t.BootOrder := by
  obtain ⟨-, hhost⟩ := s.ready_iff.mp hready
  rcases exec_of_ready hready i with ⟨r, -, -, hx'⟩ | ⟨acts, -, -, hx'⟩ | ⟨-, -, e, hx'⟩ <;> rw [hx'] at hx <;>
    cases hx
  · exact beginRequest_keeps_bootOrder r h
  · exact beginRoutine_bootOrder (h.setHost hhost _)

/-- Whatever is presented behind it, the boot routine may run. -/
theorem exec_initializeOp_bootOrder {s t : State} (hready : s.ready = true) (hx : exec .initializeOp s = .next t) :
    t.BootOrder := by
  rw [exec_of_pseudo (acts := bootActions s.cfg) hready rfl rfl] at hx
  cases hx
  refine beginRoutine_bootOrder (State.bootOrder_iff _ |>.mpr (.inr (.inl ?_)))
  simp [State.booting, bootActions]

theorem runItem_keeps_bootOrder {item : HostItem} {s t : State} (hready : s.ready = true) (h : s.BootOrder)
    (hx : runItem item s = .next t) : t.BootOrder := by
  unfold runItem at hx
  split at hx
  next => exact exec_keeps_bootOrder hready h hx
  next => cases hx; exact State.bootOrder_of_nothing_presented rfl
  next => cases hx; exact h

/-- What may come first: a wait, before what then comes first, or the boot routine (R183). -/
theorem bootsFirst_cons_iff {item : HostItem} {rest : List HostItem} :
    bootsFirst (item :: rest) = true ↔
      ((∃ n, item = .hwait n) ∧ bootsFirst rest = true) ∨ item = .call .initializeOp := by
  cases item with
  | hwait n => simp [bootsFirst]
  | call i => cases i <;> simp [bootsFirst]
  | _ => simp [bootsFirst]

/-- In an idle host the boot routine has run, or it comes next, or a wait does and may be taken. -/
theorem State.BootOrder.of_item {s : State} {item : HostItem} {rest : List HostItem} (h : s.BootOrder)
    (hh : s.host = .direct) (hp : s.program = item :: rest) :
    ((s.setProgram rest).BootOrder ∧ (s.init = true ∨ ∃ n, item = .hwait n)) ∨ item = .call .initializeOp := by
  rw [State.bootOrder_iff, State.booting_of_direct hh, hp, bootsFirst_cons_iff] at h
  rcases h with hinit | hbooting | ⟨hwait, hrest⟩ | hboot
  · exact .inl ⟨State.bootOrder_of_init hinit, .inl hinit⟩
  · cases hbooting
  · exact .inl ⟨(s.setProgram rest).bootOrder_iff.mpr (.inr (.inr hrest)), .inr hwait⟩
  · exact .inr hboot

theorem proceed_keeps_bootOrder {s t : State} (h : s.BootOrder) (hx : proceed s = .next t) : t.BootOrder := by
  unfold proceed at hx
  split at hx
  next =>
    split at hx
    next => cases hx; exact goOn_keeps_bootOrder h
    next => cases hx
  next hb =>
    replace hb : s.busy = false := by simpa using hb
    split at hx
    next acts hh => cases hx; exact goOnRoutine_keeps_bootOrder h hh
    next hh =>
      split at hx
      next => cases hx; exact h
      next item rest hp =>
        have hready : (s.setProgram rest).ready = true := (s.setProgram rest).ready_iff.mpr ⟨hb, hh⟩
        rcases h.of_item hh hp with ⟨hrest, -⟩ | rfl
        · exact runItem_keeps_bootOrder hready hrest hx
        · exact exec_initializeOp_bootOrder hready hx

theorem step_keeps_bootFirst {s t : State} (h : s.BootFirst) (hx : step s = .next t) : t.BootFirst := by
  intro _
  cases hr : s.rst with
  | asserted d =>
    rw [step_of_reset hr] at hx
    cases hx
    exact State.bootOrder_of_nothing_presented rfl
  | released => exact proceed_keeps_bootOrder (h hr) (by simpa only [step, hr] using hx)

/-! ### The moves of the host -/

/-- There is a move only where R183 is met with the items presented (R197; log 20). -/
theorem present_bootFirst {s t : State} {items : List HostItem} (h : s.present items = some t) : t.BootFirst := by
  simp only [State.present, State.hostDuties, Option.ite_none_right_eq_some, Option.some.injEq, Bool.and_eq_true] at h
  obtain ⟨⟨⟨-, hmay⟩, -⟩, rfl⟩ := h
  exact fun _ => hmay

/-- While a reset is asked for, nothing is owed. -/
theorem State.askReset_bootFirst (s : State) (d : ResetDraw) : (s.askReset d).BootFirst := fun h => by cases h

theorem present_askReset (s : State) (d : ResetDraw) (items : List HostItem) :
    (s.askReset d).present items = none := by
  simp [State.present, State.hostDuties, State.askReset]

/-- Settles O59: with no reset asked for, a step takes the boot routine or a wait, goes on with what is in progress, or
drops what is presented. -/
theorem hostBootsFirstAlongEveryRun : Obligations.HostBootsFirstAlongEveryRun := by
  refine ⟨fun _ => rfl, fun _ _ => step_keeps_bootFirst, fun _ _ _ => present_bootFirst,
    fun s d items => ⟨s.askReset_bootFirst d, present_askReset s d items⟩, ?_⟩
  intro s item rest h hready hr hinit hp
  obtain ⟨-, hhost⟩ := s.ready_iff.mp hready
  rcases State.BootOrder.of_item (h hr) hhost hp with ⟨-, htrue | hwait⟩ | hboot
  · simp [hinit] at htrue
  · exact .inr hwait
  · exact .inl hboot

/-! ## The FUNCTIONSET command (R70, R193) -/

/-- A row's byte reads as that row, and so as FUNCTIONSET only where the row is FUNCTIONSET. -/
theorem isFunctionSet_of_other_row {j : Instr} {b : Byte} (h : encodeCommand CmdSet.standard j = some b)
    (hj : ∀ l n f, j ≠ .functionSet l n f) : isFunctionSet CmdSet.standard b = false := by
  rw [isFunctionSet, decodeCommand_of_encodeCommand h]
  split
  next l n f heq => cases heq; exact absurd rfl (hj l n f)
  next => rfl

@[simp] theorem isFunctionSet_clearDisplay : isFunctionSet CmdSet.standard CmdSet.standard.clearDisplay = false :=
  isFunctionSet_of_other_row (j := .clearDisplay) rfl (by simp)

@[simp] theorem isFunctionSet_returnHome : isFunctionSet CmdSet.standard CmdSet.standard.returnHome = false :=
  isFunctionSet_of_other_row (j := .returnHome) rfl (by simp)

@[simp] theorem isFunctionSet_entryModeByte (i s : Bool) :
    isFunctionSet CmdSet.standard (entryModeByte CmdSet.standard i s) = false :=
  isFunctionSet_of_other_row (j := .entryModeSet i s) rfl (by simp)

@[simp] theorem isFunctionSet_displayControlByte (d c b : Bool) :
    isFunctionSet CmdSet.standard (displayControlByte CmdSet.standard d c b) = false :=
  isFunctionSet_of_other_row (j := .displayControl d c b) rfl (by simp)

@[simp] theorem isFunctionSet_cursorShiftByte (m r : Bool) :
    isFunctionSet CmdSet.standard (cursorShiftByte CmdSet.standard m r) = false :=
  isFunctionSet_of_other_row (j := .cursorShift m r) rfl (by simp)

@[simp] theorem isFunctionSet_cgramByte (a : BitVec 6) :
    isFunctionSet CmdSet.standard (cgramByte CmdSet.standard a) = false :=
  isFunctionSet_of_other_row (j := .setCgramAddr a) rfl (by simp)

@[simp] theorem isFunctionSet_ddramByte (a : BitVec 7) :
    isFunctionSet CmdSet.standard (ddramByte CmdSet.standard a) = false :=
  isFunctionSet_of_other_row (j := .setDdramAddr a) rfl (by simp)

/-- Settles O60: the expansions one by one; a command byte they hold is that of a row. -/
theorem noOtherExpansionHoldsAFunctionSet : Obligations.NoOtherExpansionHoldsAFunctionSet := by
  intro s i acts b hcmd he hmem hfs
  cases i with
  | initializeOp => exact .inl rfl
  | functionSet l n f => exact .inr (.inl ⟨l, n, f, rfl⟩)
  | cmd v =>
    cases he
    obtain rfl : b = v := by simpa using hmem
    exact .inr (.inr rfl)
  | setCursor col row =>
    obtain ⟨a, -, rfl⟩ := Option.map_eq_some_iff.mp he
    obtain rfl : b = ddramByte s.cfg.cmd a := by simpa using hmem
    simp [hcmd] at hfs
  | print text =>
    obtain ⟨bytes, -, rfl⟩ := Option.map_eq_some_iff.mp he
    simp at hmem
  | dat | nib | blw | xwr | noBacklight | backlight | write =>
    cases he
    simp at hmem
  | _ =>
    cases he
    simp [updateThenSend, hcmd] at hmem
    simp [hmem, dcByte, emByte, scrollByte] at hfs

end Sys2Proof.Machine
